-- ==== Sys2Proof/Word.lean ====
section
/-! DEFINITION. The words of PWMDC-CORE: the 16-bit register value (00_scope.md R15), the 32-bit operation and
response word (30_encoding.md R74, R89), the byte of a serialised trace (20_memory.md R61). -/

namespace Sys2Proof

/-- A register value: 16 bits, unsigned (R15). -/
abbrev Word := BitVec 16

/-- An operation word or a response word: 32 bits (R74, R89). -/
abbrev OpWord := BitVec 32

/-- One byte of a serialised trace (R61). -/
abbrev Byte := BitVec 8

end Sys2Proof
end

