-- ==== Sys2Proof/Config.lean ====
section
/-! DEFINITION. The configuration of one instance of PWMDC-CORE (00_scope.md R8 to R12): every parameter the spec
names, with the spec's default where it gives one. A configuration is fixed for the life of the instance (R190).
Which configurations are well formed is in WellFormed.lean, the presets of R14 are in Machine/Presets.lean. -/

namespace Sys2Proof

/-- The channel numbers: there are at most three channels (R9). -/
inductive Chan where
  | ch0 | ch1 | ch2
deriving DecidableEq, Repr

def Chan.num : Chan → Nat
  | .ch0 => 0
  | .ch1 => 1
  | .ch2 => 2

def Chan.all : List Chan := [.ch0, .ch1, .ch2]

/-- The site numbers: there are at most two button inputs (R11). -/
inductive Site where
  | s0 | s1
deriving DecidableEq, Repr

def Site.num : Site → Nat
  | .s0 => 0
  | .s1 => 1

def Site.all : List Site := [.s0, .s1]

/-- One value for each channel number. -/
structure PerChan (α : Type) where
  ch0 : α
  ch1 : α
  ch2 : α
deriving DecidableEq, Repr

def PerChan.get {α : Type} (p : PerChan α) : Chan → α
  | .ch0 => p.ch0
  | .ch1 => p.ch1
  | .ch2 => p.ch2

def PerChan.ofFn {α : Type} (f : Chan → α) : PerChan α :=
  ⟨f .ch0, f .ch1, f .ch2⟩

def PerChan.modify {α : Type} (p : PerChan α) (c : Chan) (f : α → α) : PerChan α :=
  match c with
  | .ch0 => { p with ch0 := f p.ch0 }
  | .ch1 => { p with ch1 := f p.ch1 }
  | .ch2 => { p with ch2 := f p.ch2 }

/-- One value for each site number. -/
structure PerSite (α : Type) where
  s0 : α
  s1 : α
deriving DecidableEq, Repr

def PerSite.get {α : Type} (p : PerSite α) : Site → α
  | .s0 => p.s0
  | .s1 => p.s1

def PerSite.ofFn {α : Type} (f : Site → α) : PerSite α :=
  ⟨f .s0, f .s1⟩

def PerSite.modify {α : Type} (p : PerSite α) (i : Site) (f : α → α) : PerSite α :=
  match i with
  | .s0 => { p with s0 := f p.s0 }
  | .s1 => { p with s1 := f p.s1 }

/-- CMP_MODE (R8): the comparator condition of 42_waveform.md R121. -/
inductive CmpMode where
  | eq | ge
deriving DecidableEq, Repr

/-- CH_MODE (R9): the software-compare or hardware-compare realisation; it changes no rule (42_waveform.md R127). -/
inductive ChanMode where
  | sw | hw
deriving DecidableEq, Repr

/-- CH_KIND (R9) with the start value of its kind: D_INIT of a DUTY channel, L_INIT of a LEVEL channel (default 5). -/
inductive ChanKind where
  | duty (dInit : Nat)
  | level (lInit : Nat := 5)
  | fade
deriving DecidableEq, Repr

def ChanKind.isDuty : ChanKind → Bool
  | .duty _ => true
  | .level _ => false
  | .fade => false

def ChanKind.isLevel : ChanKind → Bool
  | .duty _ => false
  | .level _ => true
  | .fade => false

def ChanKind.isFade : ChanKind → Bool
  | .duty _ => false
  | .level _ => false
  | .fade => true

/-- The parameters of one channel (R9). -/
structure ChanCfg where
  kind : ChanKind
  mode : ChanMode := .sw
deriving DecidableEq, Repr

/-- SITE_DIR (R11). -/
inductive Dir where
  | inc | dec
deriving DecidableEq, Repr

/-- SITE_POL (R11). -/
inductive Policy where
  | wrap | clamp
deriving DecidableEq, Repr

/-- The edge select, the values of ESEL (10_state.md R37): RISING is 0, FALLING is 1. -/
inductive EdgeSel where
  | rising | falling
deriving DecidableEq, Repr

/-- The parameters of one edge site (R11). `target` is SITE_CH, with `none` for NONE; SITE_MIN and SITE_MAX are
integers, as R11 has them. -/
structure SiteCfg where
  target   : Option Chan
  dir      : Dir
  step     : Nat
  pol      : Policy
  min      : Int
  max      : Int
  eselInit : EdgeSel := .rising
  ieInit   : Bool := true
  pinIdle  : Bool := false
deriving DecidableEq, Repr

/-- FADE_ROLL (R12). -/
inductive FadeRoll where
  | hold | reset
deriving DecidableEq, Repr

/-- The fade parameters (R12). -/
structure FadeCfg where
  step     : Nat := 1
  ivlInit  : Nat := 1000
  accel    : Nat := 20
  ivlMax   : Nat := 65535
  roll     : FadeRoll := .hold
deriving DecidableEq, Repr

/-- The default of D_INIT: floor(PERIOD/2) (R9). -/
def defaultDuty (period : Nat) : Nat := period / 2

/-- The default of LEVEL_TABLE: floor(k * PERIOD / 10) for k in 0..10 (R10). -/
def defaultLevelTable (period : Nat) : List Nat :=
  (List.range 11).map fun k => k * period / 10

/-- A configuration (R8 to R12). NCH is the number of `channels`, NSITES the number of `sites`, FADE_EN = 1 exactly
when `fade` holds parameters (R12: they are used only then). -/
structure Config where
  period     : Nat
  cmpMode    : CmpMode := .eq
  channels   : List ChanCfg
  levelTable : List Nat := defaultLevelTable period
  sites      : List SiteCfg := []
  dbWindow   : Nat := 0
  fade       : Option FadeCfg := none
deriving DecidableEq, Repr

/-- NCH. -/
def Config.nch (cfg : Config) : Nat := cfg.channels.length

/-- NSITES. -/
def Config.nsites (cfg : Config) : Nat := cfg.sites.length

/-- FADE_EN = 1. -/
def Config.fadeEn (cfg : Config) : Bool := cfg.fade.isSome

/-- The parameters of channel `c`; `none` when `c` is not less than NCH. -/
def Config.chan? (cfg : Config) (c : Chan) : Option ChanCfg := cfg.channels[c.num]?

/-- The parameters of site `i`; `none` when `i` is not less than NSITES. -/
def Config.site? (cfg : Config) (i : Site) : Option SiteCfg := cfg.sites[i.num]?

/-- Channel `c` exists: c < NCH. -/
def Config.hasChan (cfg : Config) (c : Chan) : Bool := (cfg.chan? c).isSome

/-- Site `i` exists: i < NSITES. -/
def Config.hasSite (cfg : Config) (i : Site) : Bool := (cfg.site? i).isSome

end Sys2Proof
end

