-- ==== Sys2Proof/Syntax.lean ====
section
/-! DEFINITION. The operations of PWMDC-CORE: one constructor for each row of spec/opcode_table.json
(30_encoding.md R76), the ports they come through (00_scope.md R7), and the response (30_encoding.md R89). -/

namespace Sys2Proof

/-- An operation with its operands as R83 reads them: a site index and a register number and a value are unsigned
integers, the pin level is one bit. A word that decodes to none of these is ILLEGAL (R87) and has no constructor:
it is no row of the opcode table. -/
inductive Instr where
  /-- TICK: one count of the PWM timer (R77; 42_waveform.md R118). -/
  | tick
  /-- FTICK: one count of the fade timer (R78; 43_fade.md R133). -/
  | ftick
  /-- PIN s, v: sample level v of button s (R79; 41_edge.md R97). -/
  | pin (site : Nat) (level : Bool)
  /-- SVC s: service the pending edge of site s (R80; 41_edge.md R104). -/
  | svc (site : Nat)
  /-- RD n: read register n (R81; 44_host_access.md R150). -/
  | rd (reg : Nat)
  /-- WR n, x: write x to register n (R82; 44_host_access.md R153). -/
  | wr (reg : Nat) (value : Nat)
deriving DecidableEq, Repr

/-- The input ports (00_scope.md R7). -/
inductive Port where
  | pwmTick
  | fadeTick
  | btn (site : Nat)
  | svc
  | host
deriving DecidableEq, Repr

/-- The port that delivers an operation (R7, R76). Execution does not depend on it: the ports are folded into one
operation stream (R7). -/
def Instr.port : Instr → Port
  | .tick => .pwmTick
  | .ftick => .fadeTick
  | .pin site _ => .btn site
  | .svc _ => .svc
  | .rd _ => .host
  | .wr _ _ => .host

end Sys2Proof
end

