-- ==== Sys2Proof/WellFormed.lean ====
section
/-! DEFINITION. Which operations fit their fields (30_encoding.md R83, R90) and which configurations are well formed
(00_scope.md R8 to R13). The spec refuses to build a machine for any other configuration (R13; 70_reset_and_hazards.md
R190). -/

namespace Sys2Proof

/-- Every operand fits its field: s <= 15, n <= 255, x <= 65535 (R83, R90). A pin level is one bit by its type. -/
def Instr.wellFormed : Instr → Bool
  | .tick => true
  | .ftick => true
  | .pin site _ => decide (site ≤ 15)
  | .svc site => decide (site ≤ 15)
  | .rd reg => decide (reg ≤ 255)
  | .wr reg value => decide (reg ≤ 255) && decide (value ≤ 65535)

namespace Config

/-- R13 item 1 with R8 and R11's DB_WINDOW: the sizes are in range. -/
def sizesOk (cfg : Config) : Bool :=
  decide (1 ≤ cfg.period ∧ cfg.period ≤ 65535 ∧ 1 ≤ cfg.nch ∧ cfg.nch ≤ 3 ∧ cfg.nsites ≤ 2 ∧ cfg.dbWindow ≤ 65535)

/-- R13 item 2: FADE_EN = 1 exactly when some channel is FADE, and then all of three channels are. -/
def fadeChannelsOk (cfg : Config) : Bool :=
  match cfg.fade with
  | none => cfg.channels.all fun c => !c.kind.isFade
  | some _ => decide (cfg.nch = 3) && cfg.channels.all fun c => c.kind.isFade

/-- R13 item 3 with the ranges of R12. -/
def fadeParamsOk (cfg : Config) : Bool :=
  match cfg.fade with
  | none => true
  | some p =>
    decide (1 ≤ p.step ∧ p.step ≤ cfg.period ∧ cfg.period % p.step = 0 ∧ 1 ≤ p.ivlInit ∧ p.ivlInit ≤ p.ivlMax ∧
      p.ivlMax ≤ 65535 ∧ 1 ≤ p.accel ∧ p.accel ≤ 65535)

/-- R13 item 4: the start values of the channels, and the table of R10 (11 states, each in [0, PERIOD]). -/
def startValuesOk (cfg : Config) : Bool :=
  (cfg.channels.all fun c =>
    match c.kind with
    | .duty d => decide (d ≤ cfg.period)
    | .level l => decide (l ≤ 10)
    | .fade => true) &&
  decide (cfg.levelTable.length = 11) && cfg.levelTable.all fun d => decide (d ≤ cfg.period)

/-- R13 item 5 with R11's range of SITE_STEP: the target exists and is DUTY or LEVEL, and the bounds fit it. -/
def siteOk (cfg : Config) (sc : SiteCfg) : Bool :=
  decide (1 ≤ sc.step ∧ sc.step ≤ 65535) &&
  match sc.target with
  | none => true
  | some c =>
    match cfg.chan? c with
    | none => false
    | some cc =>
      match cc.kind with
      | .duty _ => decide (0 ≤ sc.min ∧ sc.min ≤ sc.max ∧ sc.max ≤ cfg.period)
      | .level _ => decide (0 ≤ sc.min ∧ sc.min ≤ sc.max ∧ sc.max ≤ 10)
      | .fade => false

/-- A well-formed configuration (R13). -/
def wellFormed (cfg : Config) : Bool :=
  cfg.sizesOk && cfg.fadeChannelsOk && cfg.fadeParamsOk && cfg.startValuesOk && cfg.sites.all cfg.siteOk

end Config

end Sys2Proof
end

