-- ==== Sys2Proof/Decode.lean ====
section
/-! DEFINITION. The operation word (30_encoding.md R74 to R87): the decoder, total on every 32-bit word and rejecting
by name; the encoder; the opcode table as data; the byte form of a trace (20_memory.md R61). Decoding uses no state and
no configuration (R93). -/

namespace Sys2Proof

/-- Why a word is ILLEGAL (R87). Both execute as Fault(1). -/
inductive DecodeError where
  /-- OP is 0x0 or in 0x7 to 0xF (R84). -/
  | reservedOp
  /-- OP is defined and a reserved bit of R77 to R82 is set (R85). -/
  | reservedBits
deriving DecidableEq, Repr

/-! The fields of R75. -/

def opField (w : OpWord) : BitVec 4 := w.extractLsb' 28 4
def idxField (w : OpWord) : BitVec 4 := w.extractLsb' 24 4
def regField (w : OpWord) : BitVec 8 := w.extractLsb' 16 8
def immField (w : OpWord) : BitVec 16 := w.extractLsb' 0 16

/-- Accept `i` when the reserved bits are 0 (R85). -/
def whenClear (clear : Bool) (i : Instr) : Except DecodeError Instr :=
  if clear then .ok i else .error .reservedBits

/-- The decoder of R87. -/
def decode (w : OpWord) : Except DecodeError Instr :=
  let op := opField w
  let idx := idxField w
  let reg := regField w
  let imm := immField w
  if op = 0x1#4 then whenClear (idx == 0 && reg == 0 && imm == 0) .tick
  else if op = 0x2#4 then whenClear (idx == 0 && reg == 0 && imm == 0) .ftick
  else if op = 0x3#4 then whenClear (reg == 0 && imm.extractLsb' 1 15 == 0) (.pin idx.toNat (imm.getLsbD 0))
  else if op = 0x4#4 then whenClear (reg == 0 && imm == 0) (.svc idx.toNat)
  else if op = 0x5#4 then whenClear (idx == 0 && imm == 0) (.rd reg.toNat)
  else if op = 0x6#4 then whenClear (idx == 0) (.wr reg.toNat imm.toNat)
  else .error .reservedOp

/-- The encoder: the words of R77 to R82, as those rules write them. -/
def encode : Instr → OpWord
  | .tick => 0x10000000#32
  | .ftick => 0x20000000#32
  | .pin s v => BitVec.ofNat 32 (0x30000000 + s * 0x01000000 + v.toNat)
  | .svc s => BitVec.ofNat 32 (0x40000000 + s * 0x01000000)
  | .rd n => BitVec.ofNat 32 (0x50000000 + n * 0x10000)
  | .wr n x => BitVec.ofNat 32 (0x60000000 + n * 0x10000 + x)

/-- One row of the opcode table: the bits that select it, and their value. -/
structure OpRow where
  mnemonic : String
  mask     : OpWord
  pattern  : OpWord
deriving DecidableEq, Repr

/-- `w` matches a row. -/
def OpRow.selects (r : OpRow) (w : OpWord) : Bool := w &&& r.mask == r.pattern

/-- The row of an operation, from the bit patterns of R77 to R82. -/
def Instr.row : Instr → OpRow
  | .tick => ⟨"TICK", 0xFFFFFFFF#32, 0x10000000#32⟩
  | .ftick => ⟨"FTICK", 0xFFFFFFFF#32, 0x20000000#32⟩
  | .pin _ _ => ⟨"PIN", 0xF0FFFFFE#32, 0x30000000#32⟩
  | .svc _ => ⟨"SVC", 0xF0FFFFFF#32, 0x40000000#32⟩
  | .rd _ => ⟨"RD", 0xFF00FFFF#32, 0x50000000#32⟩
  | .wr _ _ => ⟨"WR", 0xFF000000#32, 0x60000000#32⟩

/-- The opcode table: the six rows of R76. -/
def opcodeTable : List OpRow :=
  [Instr.row .tick, Instr.row .ftick, Instr.row (.pin 0 false), Instr.row (.svc 0), Instr.row (.rd 0),
    Instr.row (.wr 0 0)]

/-- The bytes of a word in a trace file, least significant first (R61). -/
def wordBytes (w : OpWord) : List Byte :=
  [w.extractLsb' 0 8, w.extractLsb' 8 8, w.extractLsb' 16 8, w.extractLsb' 24 8]

/-- The first word of a byte sequence (R61), with the bytes after it; `none` when fewer than four bytes are left. -/
def wordOfBytes : List Byte → Option (OpWord × List Byte)
  | b0 :: b1 :: b2 :: b3 :: rest => some (b3 ++ b2 ++ b1 ++ b0, rest)
  | _ => none

/-- Decode the first word of a byte sequence. -/
def decodeBytes (bs : List Byte) : Option (Except DecodeError Instr × List Byte) :=
  (wordOfBytes bs).map fun (w, rest) => (decode w, rest)

/-- The word whose low `nbits` bits are those of `w`, its other bits 0. -/
def tableWord (nbits w : Nat) : OpWord := BitVec.ofNat 32 (w % 2 ^ nbits)

/-- What the decoder reads from a word numbered as spec/opcode_table.json numbers it. -/
def decodeTableWord (nbits w : Nat) : Option Instr :=
  match decodeBytes (wordBytes (tableWord nbits w)) with
  | some (.ok i, _) => some i
  | _ => none

end Sys2Proof
end

