-- ==== Sys2Proof/Machine/Presets.lean ====
section
/-! DEFINITION. The four named presets of 00_scope.md R14. Parameters not listed there take the defaults of
Config.lean. -/

namespace Sys2Proof.Config

/-- LED2 (variant 1). -/
def led2 : Config where
  period := 1000
  channels := [{ kind := .duty 500 }, { kind := .duty 500 }]
  sites :=
    [{ target := some .ch0, dir := .inc, step := 100, pol := .wrap, min := 0, max := 1000 },
     { target := some .ch1, dir := .inc, step := 100, pol := .clamp, min := 0, max := 1000 }]

/-- SERVO. -/
def servo : Config where
  period := 20000
  channels := [{ kind := .duty 10000 }]
  sites :=
    [{ target := some .ch0, dir := .inc, step := 100, pol := .clamp, min := 1000, max := 19000 },
     { target := some .ch0, dir := .dec, step := 100, pol := .clamp, min := 1000, max := 19000 }]

/-- DISCRETE. -/
def discrete : Config where
  period := 1000
  channels := [{ kind := .level 5 }]
  sites :=
    [{ target := some .ch0, dir := .inc, step := 1, pol := .wrap, min := 0, max := 10 },
     { target := some .ch0, dir := .dec, step := 1, pol := .wrap, min := 0, max := 10 }]

/-- A site whose event updates nothing (R11, R14: the RGB preset's sites). R14 gives such a site no direction, step,
policy or bounds, and no rule reads them (41_edge.md R105). -/
def siteNone : SiteCfg :=
  { target := none, dir := .inc, step := 1, pol := .wrap, min := 0, max := 0 }

/-- RGB. -/
def rgb : Config where
  period := 1000
  channels := [{ kind := .fade, mode := .hw }, { kind := .fade, mode := .hw }, { kind := .fade, mode := .hw }]
  sites := [siteNone, siteNone]
  fade := some {}

end Sys2Proof.Config
end

