-- ==== Sys2Proof/Machine/ConfigValues.lean ====
section
/-! DEFINITION. The values a configuration fixes: the lookup in LEVEL_TABLE (00_scope.md R10) and the reset value of
each state element (10_state.md R28 to R42, collected in 70_reset_and_hazards.md R189). An element of an absent
channel, site or fade sequencer is not state (R20); its slot holds the filler 0 (log entry 8). -/

namespace Sys2Proof.Config

/-- CH_KIND[c] = DUTY, for a channel that exists. -/
def isDutyChan (cfg : Config) (c : Chan) : Bool :=
  match cfg.chan? c with
  | none => false
  | some cc => cc.kind.isDuty

/-- CH_KIND[c] = LEVEL, for a channel that exists. -/
def isLevelChan (cfg : Config) (c : Chan) : Bool :=
  match cfg.chan? c with
  | none => false
  | some cc => cc.kind.isLevel

/-- LEVEL_TABLE[l]; the index is at most 10 in every state a run reaches (10_state.md R22). -/
def levelDuty (cfg : Config) (l : Nat) : Nat := cfg.levelTable.getD l 0

/-- The reset value of D[c] (R31). -/
def resetDuty (cfg : Config) (c : Chan) : Nat :=
  match cfg.chan? c with
  | none => 0
  | some cc =>
    match cc.kind with
    | .duty d => d
    | .level l => cfg.levelDuty l
    | .fade => if c = .ch0 then cfg.period else 0

/-- The reset value of L[c] (R32). -/
def resetLevel (cfg : Config) (c : Chan) : Nat :=
  match cfg.chan? c with
  | none => 0
  | some cc =>
    match cc.kind with
    | .duty _ => 0
    | .level l => l
    | .fade => 0

/-- The reset value of OUT[c] (R30). -/
def resetOut (cfg : Config) (c : Chan) : Bool := decide (cfg.resetDuty c ≠ 0)

/-- The reset value of PINL[i] (R36). -/
def resetPinl (cfg : Config) (i : Site) : Bool :=
  match cfg.site? i with
  | none => false
  | some sc => sc.pinIdle

/-- The reset value of ESEL[i] (R37). -/
def resetEsel (cfg : Config) (i : Site) : EdgeSel :=
  match cfg.site? i with
  | none => .rising
  | some sc => sc.eselInit

/-- The reset value of IE[i] (R38). -/
def resetIe (cfg : Config) (i : Site) : Bool :=
  match cfg.site? i with
  | none => false
  | some sc => sc.ieInit

/-- The reset value of FIVL (R42). -/
def resetFivl (cfg : Config) : Nat :=
  match cfg.fade with
  | none => 0
  | some p => p.ivlInit

end Sys2Proof.Config
end

