-- ==== Sys2Proof/Machine/State.lean ====
section
/-! DEFINITION. The state of PWMDC-CORE (10_state.md R20), its reset value (70_reset_and_hazards.md R188, R189), and
how a step can stop. -/

namespace Sys2Proof.Machine

/-- The nine fault codes of 60_exceptions.md R164. A fault of the spec is an entry after which the block goes on
(R165, R168): `State.raise` in Machine/Ops.lean takes it. -/
inductive FaultCode where
  | illegalOp
  | outOfRangeDuty
  | outOfRangeLevel
  | badRegister
  | readOnly
  | badIndex
  | writeConflict
  | badValue
  | svcNotEnabled
deriving DecidableEq, Repr

/-- The answer to an operation (30_encoding.md R89): OK with data, or FAULT(c). -/
inductive Response where
  | ok (data : Word)
  | fault (code : FaultCode)
deriving DecidableEq, Repr

/-- PHASE (R41), the source's FadePhase; the value 3 is never held and has no constructor. -/
inductive Phase where
  | redToGreen | greenToBlue | blueToRed
deriving DecidableEq, Repr

/-- The elements of one channel: OUT[ch] (R30), D[ch] (R31), L[ch] (R32). -/
structure ChanState where
  out   : Bool
  duty  : Word
  level : Word
deriving DecidableEq, Repr

/-- The elements of one site: PEND[s] (R35), PINL[s] (R36), ESEL[s] (R37), IE[s] (R38), DBC[s] (R39). -/
structure SiteState where
  pend : Bool
  pinl : Bool
  esel : EdgeSel
  ie   : Bool
  dbc  : Word
deriving DecidableEq, Repr

/-- The elements of the fade sequencer: FCNT (R40), PHASE (R41), FIVL (R42). -/
structure FadeState where
  fcnt  : Word
  phase : Phase
  fivl  : Word
deriving DecidableEq, Repr

/-- The whole machine. `cnt`, `err`, `chans`, `sites` and `fade` are the elements of R20. The rest are the model's own
fields: `cfg`, the configuration, which no operation writes (R19; log entry 1); `stream`, the operation words the
environment presents next, in the scheduler's order (R19, R177; log entry 3); `resp`, the response of the last
operation, absent before the first (R89; log entry 5). -/
structure State where
  cfg    : Config
  cnt    : Word
  err    : Word
  chans  : PerChan ChanState
  sites  : PerSite SiteState
  fade   : FadeState
  stream : List OpWord
  resp   : Option Response
deriving DecidableEq, Repr

/-- The state after power-on reset of an instance with configuration `cfg` (R189). -/
def State.resetOf (cfg : Config) : State where
  cfg := cfg
  cnt := 0
  err := 0
  chans := PerChan.ofFn fun c =>
    { out := cfg.resetOut c, duty := BitVec.ofNat 16 (cfg.resetDuty c), level := BitVec.ofNat 16 (cfg.resetLevel c) }
  sites := PerSite.ofFn fun i =>
    { pend := false, pinl := cfg.resetPinl i, esel := cfg.resetEsel i, ie := cfg.resetIe i, dbc := 0 }
  fade := { fcnt := 0, phase := .redToGreen, fivl := BitVec.ofNat 16 cfg.resetFivl }
  stream := []
  resp := none

/-- Power-on (R188): no machine is built for a configuration that is not well formed (00_scope.md R13; R190). -/
def State.boot (cfg : Config) : Option State :=
  if cfg.wellFormed then some (State.resetOf cfg) else none

/-- Power-off and power-on (R188): nothing persists but the configuration. No operation does this. -/
def State.powerCycle (s : State) : State := State.resetOf s.cfg

/-- The machine right after reset, for the preset LED2. DESIGN CHOICE: the spec gives a reset state for each
configuration and prefers none; see log entry 2. -/
def State.reset : State := State.resetOf Config.led2

/-- The faults at which the machine stops: none. No fault of the spec stops the block (44_host_access.md R161,
60_exceptions.md R168), so this type has no constructor; nothing raises it (safe; log entry 6). -/
inductive Fault where
deriving DecidableEq, Repr

/-- Why the model refuses a step. -/
inductive Refusal where
  /-- Raised by an arm of `exec` for an operation without a meaning yet; no arm does so now. Safe. -/
  | notModelled (mnemonic : String)
  /-- Raised by `step` alone, in a state whose configuration is not well formed: the spec builds no machine for it
  (00_scope.md R13, 70_reset_and_hazards.md R190). Safe. -/
  | illFormedConfig
deriving DecidableEq, Repr

end Sys2Proof.Machine
end

