-- ==== Sys2Proof/Machine/Flags.lean ====
section
/-! DEFINITION. The status bits (10_state.md R27: PEND, OUT, ERR) and the numeric encodings software sees: the
conditions under which OUT and PEND change, the bit of ERR a fault sets, the response word. -/

namespace Sys2Proof.Machine

/-- The code of a fault (60_exceptions.md R164). -/
def FaultCode.code : FaultCode → Nat
  | .illegalOp => 1
  | .outOfRangeDuty => 2
  | .outOfRangeLevel => 3
  | .badRegister => 4
  | .readOnly => 5
  | .badIndex => 6
  | .writeConflict => 7
  | .badValue => 8
  | .svcNotEnabled => 9

/-- The bit of ERR a fault sets: bit c for the fault of code c (10_state.md R34). -/
def FaultCode.errBit (c : FaultCode) : Word := BitVec.ofNat 16 (2 ^ c.code)

/-- The response word (30_encoding.md R89): F in bit 31, CODE in bits 23:16, DATA in bits 15:0. -/
def Response.word : Response → OpWord
  | .ok data => BitVec.ofNat 32 data.toNat
  | .fault c => BitVec.ofNat 32 (0x80000000 + c.code * 0x10000)

/-- The numeric encoding of PHASE (10_state.md R41). -/
def Phase.num : Phase → Nat
  | .redToGreen => 0
  | .greenToBlue => 1
  | .blueToRed => 2

/-- The bit of ESEL (10_state.md R37): 0 = RISING, 1 = FALLING. -/
def edgeBit : EdgeSel → Bool
  | .rising => false
  | .falling => true

/-- The edge select a bit names (R37). -/
def edgeOfBit (b : Bool) : EdgeSel := if b then .falling else .rising

/-- The comparator condition match(c, d) of 42_waveform.md R121. -/
def cmpMatch (mode : CmpMode) (count duty : Nat) : Bool :=
  match mode with
  | .eq => decide (count = duty)
  | .ge => decide (count ≥ duty)

/-- OUT[ch] after a TICK whose new count is `count`: the overflow event at 0 (42_waveform.md R119), else LOW at a
compare match (R121), else as it was. -/
def outAfter (mode : CmpMode) (count duty : Nat) (out : Bool) : Bool :=
  if count = 0 then decide (duty ≠ 0)
  else if cmpMatch mode count duty then false
  else out

/-- A qualifying transition: the level changes in the direction ESEL selects (41_edge.md R96). -/
def qualifying (sel : EdgeSel) (prev level : Bool) : Bool :=
  match sel with
  | .rising => !prev && level
  | .falling => prev && !level

end Sys2Proof.Machine
end

