-- ==== Sys2Proof/Machine/Ops.lean ====
section
/-! DEFINITION. The named operations over the state: one accessor and one writer for each element of 10_state.md R20,
the fault entry (60_exceptions.md R165), the completion of an operation (30_encoding.md R89), and the operation stream.
The block has no memory (20_memory.md R59) and no return from a fault (R168). -/

namespace Sys2Proof.Machine.State

/-! Reading the elements. -/

def out (s : State) (c : Chan) : Bool := (s.chans.get c).out
def duty (s : State) (c : Chan) : Word := (s.chans.get c).duty
def level (s : State) (c : Chan) : Word := (s.chans.get c).level
def pend (s : State) (i : Site) : Bool := (s.sites.get i).pend
def pinl (s : State) (i : Site) : Bool := (s.sites.get i).pinl
def esel (s : State) (i : Site) : EdgeSel := (s.sites.get i).esel
def ie (s : State) (i : Site) : Bool := (s.sites.get i).ie
def dbc (s : State) (i : Site) : Word := (s.sites.get i).dbc
def fcnt (s : State) : Word := s.fade.fcnt
def phase (s : State) : Phase := s.fade.phase
def fivl (s : State) : Word := s.fade.fivl

/-! Writing the elements. -/

def setCnt (s : State) (v : Word) : State := { s with cnt := v }

def setDuty (s : State) (c : Chan) (v : Word) : State :=
  { s with chans := s.chans.modify c fun e => { e with duty := v } }

def setLevel (s : State) (c : Chan) (v : Word) : State :=
  { s with chans := s.chans.modify c fun e => { e with level := v } }

def setPend (s : State) (i : Site) (v : Bool) : State :=
  { s with sites := s.sites.modify i fun e => { e with pend := v } }

def setPinl (s : State) (i : Site) (v : Bool) : State :=
  { s with sites := s.sites.modify i fun e => { e with pinl := v } }

def setEsel (s : State) (i : Site) (v : EdgeSel) : State :=
  { s with sites := s.sites.modify i fun e => { e with esel := v } }

def setIe (s : State) (i : Site) (v : Bool) : State :=
  { s with sites := s.sites.modify i fun e => { e with ie := v } }

def setDbc (s : State) (i : Site) (v : Word) : State :=
  { s with sites := s.sites.modify i fun e => { e with dbc := v } }

def setFcnt (s : State) (v : Word) : State := { s with fade := { s.fade with fcnt := v } }
def setPhase (s : State) (v : Phase) : State := { s with fade := { s.fade with phase := v } }
def setFivl (s : State) (v : Word) : State := { s with fade := { s.fade with fivl := v } }

/-- OUT of every channel at once: TICK's loop over the channels (42_waveform.md R118). -/
def setOuts (s : State) (f : Chan → Bool) : State :=
  { s with chans := PerChan.ofFn fun c => { s.chans.get c with out := f c } }

/-- DBC of every site at once: TICK's loop over the sites (42_waveform.md R118). -/
def setDbcs (s : State) (f : Site → Word) : State :=
  { s with sites := PerSite.ofFn fun i => { s.sites.get i with dbc := f i } }

/-- L[c] <- l; D[c] <- LEVEL_TABLE[l] in the same operation (10_state.md R25). -/
def setLevelAlias (s : State) (c : Chan) (l : Nat) : State :=
  (s.setLevel c (BitVec.ofNat 16 l)).setDuty c (BitVec.ofNat 16 (s.cfg.levelDuty l))

/-! The end of an operation. -/

/-- The operation completes: response OK with `data`, which is 0 for every operation but RD (00_scope.md R16). -/
def complete (s : State) (data : Word) : State := { s with resp := some (.ok data) }

/-- Fault entry (60_exceptions.md R165): ERR[c] <- 1 and the response FAULT(c); no other element changes. -/
def raise (s : State) (c : FaultCode) : State := { s with err := s.err ||| c.errBit, resp := some (.fault c) }

/-! Events and ports. -/

/-- SVC of site i is enabled exactly when PEND[i] = 1 and IE[i] = 1 (60_exceptions.md R170). -/
def svcEnabled (s : State) (i : Site) : Bool := s.pend i && s.ie i

/-- The level driven onto port `pwm_out[c]` (10_state.md R30), for a channel that exists. -/
def pwmOut (s : State) (c : Chan) : Option Bool := if s.cfg.hasChan c then some (s.out c) else none

/-- The word the host port carries after the last operation (30_encoding.md R89). -/
def hostPort (s : State) : Option OpWord := s.resp.map Response.word

/-! The operation stream. -/

/-- The environment presents `w` as the next operation word, ahead of the rest of the stream. -/
def present (s : State) (w : OpWord) : State := { s with stream := w :: s.stream }

/-- The next operation word and the state that has taken it from the stream; `none` when none is presented. -/
def takeOp (s : State) : Option (OpWord × State) :=
  match s.stream with
  | [] => none
  | w :: rest => some (w, { s with stream := rest })

end Sys2Proof.Machine.State
end

