-- ==== Sys2Proof/Machine/Operands.lean ====
section
/-! DEFINITION. The operand forms (30_encoding.md R83): IDX names a site, REG names a register of the map of
10_state.md R43. Both are resolved against the configuration at execution (30_encoding.md R86). -/

namespace Sys2Proof

/-- The site number of an index below 2. -/
def Site.ofNum? : Nat → Option Site
  | 0 => some .s0
  | 1 => some .s1
  | _ => none

end Sys2Proof

namespace Sys2Proof.Machine

/-- The site an index names, with its parameters; `none` when s >= NSITES. -/
def siteAt (cfg : Config) (n : Nat) : Option (Site × SiteCfg) :=
  match Site.ofNum? n with
  | none => none
  | some i =>
    match cfg.site? i with
    | none => none
    | some sc => some (i, sc)

/-- The registers of the map of R43, by name. -/
inductive Reg where
  | period | cnt | out | err | pend | pinl
  | siteCfg (i : Site)
  | dbc (i : Site)
  | duty (c : Chan)
  | level (c : Chan)
  | phase | fcnt | fivl
deriving DecidableEq, Repr

/-- The number of a register (R43). -/
def Reg.num : Reg → Nat
  | .period => 0x00
  | .cnt => 0x01
  | .out => 0x02
  | .err => 0x03
  | .pend => 0x04
  | .pinl => 0x05
  | .siteCfg i => 0x08 + i.num
  | .dbc i => 0x0C + i.num
  | .duty c => 0x10 + c.num
  | .level c => 0x14 + c.num
  | .phase => 0x18
  | .fcnt => 0x19
  | .fivl => 0x1A

/-- Every register of the map, in the order of their numbers. -/
def Reg.all : List Reg :=
  [.period, .cnt, .out, .err, .pend, .pinl] ++ Site.all.map .siteCfg ++ Site.all.map .dbc ++
    Chan.all.map .duty ++ Chan.all.map .level ++ [.phase, .fcnt, .fivl]

/-- The "present when" column of R43. -/
def Reg.present (cfg : Config) : Reg → Bool
  | .period => true
  | .cnt => true
  | .out => true
  | .err => true
  | .pend => true
  | .pinl => true
  | .siteCfg i => cfg.hasSite i
  | .dbc i => cfg.hasSite i
  | .duty c => cfg.hasChan c
  | .level c => cfg.hasChan c
  | .phase => cfg.fadeEn
  | .fcnt => cfg.fadeEn
  | .fivl => cfg.fadeEn

/-- The read-only registers (44_host_access.md R154). -/
def Reg.readOnly : Reg → Bool
  | .period => true
  | .cnt => true
  | .out => true
  | .err => true
  | .pend => true
  | .pinl => true
  | .siteCfg _ => false
  | .dbc _ => true
  | .duty _ => false
  | .level _ => false
  | .phase => true
  | .fcnt => true
  | .fivl => true

/-- The register a number names in a configuration; `none` when it is unmapped (R57). -/
def regAt (cfg : Config) (n : Nat) : Option Reg :=
  Reg.all.find? fun r => r.num == n && r.present cfg

end Sys2Proof.Machine
end

