-- ==== Sys2Proof/Machine/Edge.lean ====
section
/-! DEFINITION. The debounced edge detector and the duty-cycle update: PIN and SVC (41_edge.md R94 to R116). -/

namespace Sys2Proof.Machine

/-- An edge is accepted when it qualifies and no lock-out runs (R97, R98). -/
def State.acceptsEdge (s : State) (i : Site) (level : Bool) : Bool :=
  qualifying (s.esel i) (s.pinl i) level && s.dbc i == 0

/-- An accepted edge sets PEND[i] whatever it was, and reloads DBC[i] with DB_WINDOW (R98). -/
def State.latchEdge (s : State) (i : Site) : State :=
  (s.setPend i true).setDbc i (BitVec.ofNat 16 s.cfg.dbWindow)

/-- PIN s, v: sample the raw level of button s (R97). -/
def execPin (site : Nat) (level : Bool) (s : State) : Host.Outcome State Fault Refusal :=
  match siteAt s.cfg site with
  | none => .next (s.raise .badIndex)
  | some (i, _) =>
    let sampled := s.setPinl i level
    .next ((if s.acceptsEdge i level then sampled.latchEdge i else sampled).complete 0)

/-- clamp(r, lo, hi) = min(max(r, lo), hi) (00_scope.md R16). -/
def clampInt (r lo hi : Int) : Int := min (max r lo) hi

/-- upd(s, x) of R100, on integers: the step, then the WRAP policy (R101) or the CLAMP policy (R102). -/
def upd (sc : SiteCfg) (x : Int) : Int :=
  let r := match sc.dir with
    | .inc => x + sc.step
    | .dec => x - sc.step
  match sc.pol with
  | .clamp => clampInt r sc.min sc.max
  | .wrap =>
    match sc.dir with
    | .inc => if r > sc.max then sc.min else max r sc.min
    | .dec => if r < sc.min then sc.max else min r sc.max

/-- The site's update applied to its target: the duty register of a DUTY channel, the level index of a LEVEL channel
with its alias (R103), nothing for NONE (R105). A FADE channel is no target (00_scope.md R13). -/
def State.applyUpdate (s : State) (sc : SiteCfg) : State :=
  match sc.target with
  | none => s
  | some c =>
    match s.cfg.chan? c with
    | none => s
    | some cc =>
      match cc.kind with
      | .duty _ => s.setDuty c (BitVec.ofNat 16 (upd sc (s.duty c).toNat).toNat)
      | .level _ => s.setLevelAlias c (upd sc (s.level c).toNat).toNat
      | .fade => s

/-- SVC s: service the pending edge of site s (R104). -/
def execSvc (site : Nat) (s : State) : Host.Outcome State Fault Refusal :=
  match siteAt s.cfg site with
  | none => .next (s.raise .badIndex)
  | some (i, sc) =>
    if s.svcEnabled i then .next (((s.applyUpdate sc).setPend i false).complete 0)
    else .next (s.raise .svcNotEnabled)

end Sys2Proof.Machine
end

