-- ==== Sys2Proof/Machine/Fade.lean ====
section
/-! DEFINITION. The colour-fade interpolator: FTICK (43_fade.md R132 to R148). Channel 0 is red, 1 green, 2 blue. -/

namespace Sys2Proof.Machine

/-- FALL[PHASE], the decreasing channel (R136). -/
def Phase.falling : Phase → Chan
  | .redToGreen => .ch0
  | .greenToBlue => .ch1
  | .blueToRed => .ch2

/-- RISE[PHASE], the increasing channel (R136). -/
def Phase.rising : Phase → Chan
  | .redToGreen => .ch1
  | .greenToBlue => .ch2
  | .blueToRed => .ch0

/-- The other channel, which a fade step does not write (R136). -/
def Phase.other : Phase → Chan
  | .redToGreen => .ch2
  | .greenToBlue => .ch0
  | .blueToRed => .ch1

/-- (PHASE + 1) mod 3 (R138). -/
def Phase.succ : Phase → Phase
  | .redToGreen => .greenToBlue
  | .greenToBlue => .blueToRed
  | .blueToRed => .redToGreen

/-- The next fade interval (R139). -/
def nextInterval (p : FadeCfg) (fivl : Nat) : Nat :=
  if fivl + p.accel ≤ p.ivlMax then fivl + p.accel
  else
    match p.roll with
    | .hold => p.ivlMax
    | .reset => p.ivlInit

/-- The fade step (R137): the falling channel loses FADE_STEP, the rising one gains it. -/
def State.fadeStep (p : FadeCfg) (s : State) : State :=
  let f := s.phase.falling
  let r := s.phase.rising
  let fell := s.setDuty f (BitVec.ofNat 16 ((s.duty f).toNat - p.step))
  fell.setDuty r (BitVec.ofNat 16 ((fell.duty r).toNat + p.step))

/-- The phase advances in the fade tick that brings the falling channel to 0 (R138). -/
def State.advancePhase (fell : Chan) (s : State) : State :=
  if s.duty fell = 0 then s.setPhase s.phase.succ else s

/-- The interval update of a fade tick (R139). -/
def State.lengthenInterval (p : FadeCfg) (s : State) : State :=
  s.setFivl (BitVec.ofNat 16 (nextInterval p s.fivl.toNat))

/-- A fade tick: FCNT restarts, then the channel step, the phase advance, the interval update (R133; the order is
60_exceptions.md R173). -/
def State.fadeTick (p : FadeCfg) (s : State) : State :=
  (((s.setFcnt 0).fadeStep p).advancePhase s.phase.falling).lengthenInterval p

/-- FTICK: one count of the fade timer (R133). Without a fade sequencer it changes no state and answers OK (R135). -/
def execFtick (s : State) : Host.Outcome State Fault Refusal :=
  match s.cfg.fade with
  | none => .next (s.complete 0)
  | some p =>
    let count := s.fcnt.toNat + 1
    if count = s.fivl.toNat then .next ((s.fadeTick p).complete 0)
    else .next ((s.setFcnt (BitVec.ofNat 16 count)).complete 0)

end Sys2Proof.Machine
end

