-- ==== Sys2Proof/Machine/HostAccess.lean ====
section
/-! DEFINITION. Host register access: RD, WR and the illegal word (44_host_access.md R149 to R163). -/

namespace Sys2Proof.Machine

/-- Bit `k` of a register as a number, when its channel or site exists and it is 1. -/
def bitValue (present bit : Bool) (k : Nat) : Nat := if present && bit then 2 ^ k else 0

/-- The sum over ch < NCH of OUT[ch] * 2^ch (R151). -/
def State.outBits (s : State) : Nat :=
  (Chan.all.map fun c => bitValue (s.cfg.hasChan c) (s.out c) c.num).sum

/-- The sum over s < NSITES of b(s) * 2^s (R151). -/
def State.siteBits (s : State) (b : Site → Bool) : Nat :=
  (Site.all.map fun i => bitValue (s.cfg.hasSite i) (b i) i.num).sum

/-- The value a RD of a present register returns (R151). -/
def State.regValue (s : State) : Reg → Word
  | .period => BitVec.ofNat 16 s.cfg.period
  | .cnt => s.cnt
  | .out => BitVec.ofNat 16 s.outBits
  | .err => s.err
  | .pend => BitVec.ofNat 16 (s.siteBits s.pend)
  | .pinl => BitVec.ofNat 16 (s.siteBits s.pinl)
  | .siteCfg i => BitVec.ofNat 16 ((s.ie i).toNat + 2 * (edgeBit (s.esel i)).toNat)
  | .dbc i => s.dbc i
  | .duty c => s.duty c
  | .level c => s.level c
  | .phase => BitVec.ofNat 16 s.phase.num
  | .fcnt => s.fcnt
  | .fivl => s.fivl

/-- RD n: read register n; no state element changes (R150, 20_memory.md R64). -/
def execRd (reg : Nat) (s : State) : Host.Outcome State Fault Refusal :=
  match regAt s.cfg reg with
  | none => .next (s.raise .badRegister)
  | some r => .next (s.complete (s.regValue r))

/-- The checks of a WR to a present register, items (2) to (6) of R152 in their order: the first fault that applies. -/
def writeFault (cfg : Config) (r : Reg) (x : Nat) : Option FaultCode :=
  if r.readOnly then some .readOnly
  else
    match r with
    | .siteCfg _ => if x / 4 ≠ 0 then some .badValue else none
    | .duty c =>
      if !cfg.isDutyChan c then some .writeConflict
      else if x > cfg.period then some .outOfRangeDuty
      else none
    | .level c =>
      if !cfg.isLevelChan c then some .writeConflict
      else if x > 10 then some .outOfRangeLevel
      else none
    | _ => none

/-- The effect of an accepted WR: SITECFG (R155), D (R156), L with its alias (R157). No other register is writable. -/
def State.writeReg (s : State) (r : Reg) (x : Nat) : State :=
  match r with
  | .siteCfg i => (s.setIe i (x.testBit 0)).setEsel i (edgeOfBit (x.testBit 1))
  | .duty c => s.setDuty c (BitVec.ofNat 16 x)
  | .level c => s.setLevelAlias c x
  | _ => s

/-- WR n, x: write value x to register n (R153). -/
def execWr (reg value : Nat) (s : State) : Host.Outcome State Fault Refusal :=
  match regAt s.cfg reg with
  | none => .next (s.raise .badRegister)
  | some r =>
    match writeFault s.cfg r value with
    | some c => .next (s.raise c)
    | none => .next ((s.writeReg r value).complete 0)

/-- ILLEGAL: any word that decodes to ILLEGAL raises Fault(1) (R159). -/
def execIllegal (s : State) : Host.Outcome State Fault Refusal :=
  .next (s.raise .illegalOp)

end Sys2Proof.Machine
end

