-- ==== Sys2Proof/Machine/Waveform.lean ====
section
/-! DEFINITION. The timer-compare waveform generator: TICK (42_waveform.md R117 to R131). -/

namespace Sys2Proof.Machine

/-- The count after a TICK: (CNT + 1) mod PERIOD (R120). -/
def State.nextCount (s : State) : Nat := (s.cnt.toNat + 1) % s.cfg.period

/-- DBC[i] after a TICK: max(DBC[i] - 1, 0) for a site that exists (R118). -/
def State.dbcAfterTick (s : State) (i : Site) : Word :=
  if s.cfg.hasSite i then BitVec.ofNat 16 ((s.dbc i).toNat - 1) else s.dbc i

/-- OUT[c] after a TICK whose new count is `count`, for a channel that exists (R118). The duty register is read as it
stands at this TICK, and no other channel is read (R128). -/
def State.outAfterTick (s : State) (count : Nat) (c : Chan) : Bool :=
  if s.cfg.hasChan c then outAfter s.cfg.cmpMode count (s.duty c).toNat (s.out c) else s.out c

/-- TICK: one count of the PWM timer (R118). -/
def execTick (s : State) : Host.Outcome State Fault Refusal :=
  let count := s.nextCount
  let counted := (s.setCnt (BitVec.ofNat 16 count)).setDbcs s.dbcAfterTick
  .next ((counted.setOuts (s.outAfterTick count)).complete 0)

end Sys2Proof.Machine
end

