-- ==== Sys2Proof/Machine/Dispatch.lean ====
section
/-! DEFINITION. One arm for each operation: its meaning (00_scope.md R6). -/

namespace Sys2Proof.Machine

def exec (i : Instr) (s : State) : Host.Outcome State Fault Refusal :=
  match i with
  | .tick => Sys2Proof.Machine.execTick s
  | .ftick => Sys2Proof.Machine.execFtick s
  | .pin site level => Sys2Proof.Machine.execPin site level s
  | .svc site => Sys2Proof.Machine.execSvc site s
  | .rd reg => Sys2Proof.Machine.execRd reg s
  | .wr reg value => Sys2Proof.Machine.execWr reg value s

end Sys2Proof.Machine
end

