-- ==== Sys2Proof/Machine/Run.lean ====
section
/-! DEFINITION. The execution of one operation word: decoding comes first (60_exceptions.md R167), and an ILLEGAL word
on any port is refused with Fault(1) (44_host_access.md R159). -/

namespace Sys2Proof.Machine

/-- Decode and execute one operation word. -/
def runWord (w : OpWord) (s : State) : Host.Outcome State Fault Refusal :=
  match decode w with
  | .ok i => exec i s
  | .error _ => execIllegal s

end Sys2Proof.Machine
end

