-- ==== Sys2Proof/Machine/Step.lean ====
section
/-! DEFINITION. One step: take the next operation word the environment presents and execute it (00_scope.md R6,
60_exceptions.md R177). -/

namespace Sys2Proof.Machine

/-- One step. A configuration that is not well formed has no runs (70_reset_and_hazards.md R190). With no operation
presented the block waits and holds every element (70_reset_and_hazards.md R192, 60_exceptions.md R184; log entry 4). -/
def step (s : State) : Host.Outcome State Fault Refusal :=
  if s.cfg.wellFormed then
    match s.takeOp with
    | none => .next s
    | some (w, taken) => runWord w taken
  else .refused .illFormedConfig

/-- `s` with the word presented as the next operation (log entry 3). -/
def State.withFetchWord (s : State) (nbits w : Nat) : State := s.present (tableWord nbits w)

end Sys2Proof.Machine
end

