-- ==== Sys2Proof/Machine/Assembler.lean ====
section
/-! DEFINITION. The assembler syntax (30_encoding.md R90) and the pseudo-operations (R91). An expansion fixes the words,
not the interleaving: the environment may place other words between them (R91). What R90 leaves open of the text
(white space, blank lines) is in log entry 10. -/

namespace Sys2Proof.Asm

open Sys2Proof.Machine (Reg)

/-- A line of assembler text: the six operations of R90 and the pseudo-operations of R91, operands not yet checked. -/
inductive Line where
  | tick | ftick
  | pin (s v : Nat)
  | svc (s : Nat)
  | rd (n : Nat)
  | wr (n x : Nat)
  | tickN (n : Nat)
  | period
  | ftickN (n : Nat)
  | press (s : Nat)
  | button (s : Nat)
  | wrd (ch x : Nat)
  | rdd (ch : Nat)
  | wrl (ch x : Nat)
  | cfg (s ie esel : Nat)
deriving DecidableEq, Repr

/-- An operation whose operands fit their fields, or nothing: an operand that does not fit is refused, not truncated
(R90). -/
def fit (i : Instr) : Option Instr := if i.wellFormed then some i else none

/-- `pin s, v`: v > 1 does not fit the one-bit level (R90). -/
def fitPin (s v : Nat) : Option Instr := if v ≤ 1 then fit (.pin s (v == 1)) else none

/-- `n` copies, n >= 1 (R91). -/
def copies (n : Nat) (i : Instr) : Option (List Instr) := if 1 ≤ n then some (List.replicate n i) else none

/-- The operations a line stands for, in order (R90, R91); nothing when an operand does not fit. -/
def expand (period : Nat) : Line → Option (List Instr)
  | .tick => some [.tick]
  | .ftick => some [.ftick]
  | .pin s v => [fitPin s v].allSome
  | .svc s => [fit (.svc s)].allSome
  | .rd n => [fit (.rd n)].allSome
  | .wr n x => [fit (.wr n x)].allSome
  | .tickN n => copies n .tick
  | .period => copies period .tick
  | .ftickN n => copies n .ftick
  | .press s => [fitPin s 1, fitPin s 0].allSome
  | .button s => [fitPin s 1, fitPin s 0, fit (.svc s)].allSome
  | .wrd ch x => [fit (.wr (0x10 + ch) x)].allSome
  | .rdd ch => [fit (.rd (0x10 + ch))].allSome
  | .wrl ch x => [fit (.wr (0x14 + ch) x)].allSome
  | .cfg s ie esel => [fit (.wr (0x08 + s) (ie + 2 * esel))].allSome

/-! The text. -/

/-- The name of a register (R90, with the names of 10_state.md R43). -/
def regName : Reg → String
  | .period => "PERIOD"
  | .cnt => "CNT"
  | .out => "OUT"
  | .err => "ERR"
  | .pend => "PEND"
  | .pinl => "PINL"
  | .siteCfg .s0 => "SITECFG0"
  | .siteCfg .s1 => "SITECFG1"
  | .dbc .s0 => "DBC0"
  | .dbc .s1 => "DBC1"
  | .duty .ch0 => "D0"
  | .duty .ch1 => "D1"
  | .duty .ch2 => "D2"
  | .level .ch0 => "L0"
  | .level .ch1 => "L1"
  | .level .ch2 => "L2"
  | .phase => "PHASE"
  | .fcnt => "FCNT"
  | .fivl => "FIVL"

/-- The value of a digit, decimal or hexadecimal. -/
def digit (c : Char) : Option Nat :=
  if '0'.toNat ≤ c.toNat ∧ c.toNat ≤ '9'.toNat then some (c.toNat - '0'.toNat)
  else if 'a'.toNat ≤ c.toNat ∧ c.toNat ≤ 'f'.toNat then some (c.toNat - 'a'.toNat + 10)
  else if 'A'.toNat ≤ c.toNat ∧ c.toNat ≤ 'F'.toNat then some (c.toNat - 'A'.toNat + 10)
  else none

/-- Digits of a base, most significant first, after the value read so far. -/
def digits (base : Nat) : List Char → Nat → Option Nat
  | [], value => some value
  | c :: cs, value =>
    match digit c with
    | none => none
    | some d => if d < base then digits base cs (value * base + d) else none

/-- A number: decimal, or hexadecimal with the leading 0x (R90). -/
def number : List Char → Option Nat
  | [] => none
  | '0' :: 'x' :: c :: cs => digits 16 (c :: cs) 0
  | c :: cs => digits 10 (c :: cs) 0

/-- A register number, or a register's name (R90). -/
def register (text : List Char) : Option Nat :=
  match number text with
  | some n => some n
  | none => (Reg.all.find? fun r => (regName r).toList == text).map Reg.num

def isBlank (c : Char) : Bool := c == ' ' || c == '\t'

def trim (text : List Char) : List Char :=
  ((text.dropWhile isBlank).reverse.dropWhile isBlank).reverse

/-- The text before a comment (R90: a ';' starts a comment to the end of the line). -/
def beforeComment (text : List Char) : List Char := text.takeWhile fun c => c != ';'

/-- The pieces between commas. -/
def pieces : List Char → List (List Char)
  | [] => [[]]
  | c :: cs =>
    if c == ',' then [] :: pieces cs
    else
      match pieces cs with
      | [] => [[c]]
      | p :: ps => (c :: p) :: ps

/-- The operands after a mnemonic. -/
def operands (text : List Char) : List (List Char) :=
  if trim text == [] then [] else (pieces text).map trim

/-- The operands as numbers; the first may be a register's name when `regFirst` holds. -/
def numbers (regFirst : Bool) (ops : List (List Char)) : Option (List Nat) :=
  match ops with
  | [] => some []
  | op :: rest => ((if regFirst then register op else number op) :: rest.map number).allSome

/-- The line a mnemonic and its operands name. -/
def lineOf (mnemonic : String) (ops : List Nat) : Option Line :=
  match ops with
  | [] =>
    if mnemonic == "tick" then some .tick
    else if mnemonic == "ftick" then some .ftick
    else if mnemonic == "period" then some .period
    else none
  | [a] =>
    if mnemonic == "svc" then some (.svc a)
    else if mnemonic == "rd" then some (.rd a)
    else if mnemonic == "tick" then some (.tickN a)
    else if mnemonic == "ftick" then some (.ftickN a)
    else if mnemonic == "press" then some (.press a)
    else if mnemonic == "button" then some (.button a)
    else if mnemonic == "rdd" then some (.rdd a)
    else none
  | [a, b] =>
    if mnemonic == "pin" then some (.pin a b)
    else if mnemonic == "wr" then some (.wr a b)
    else if mnemonic == "wrd" then some (.wrd a b)
    else if mnemonic == "wrl" then some (.wrl a b)
    else none
  | [a, b, c] => if mnemonic == "cfg" then some (.cfg a b c) else none
  | _ => none

/-- One line of text: its words, in order; none for a blank or comment line; nothing when it is not a line of the
syntax or an operand does not fit. -/
def assemble (period : Nat) (text : String) : Option (List OpWord) :=
  let body := trim (beforeComment text.toList)
  if body == [] then some []
  else
    let name := body.takeWhile fun c => !isBlank c
    let mnemonic := String.ofList name
    let ops := operands (body.drop name.length)
    match numbers (mnemonic == "rd" || mnemonic == "wr") ops with
    | none => none
    | some ns =>
      match lineOf mnemonic ns with
      | none => none
      | some line => (expand period line).map fun is => is.map encode

end Sys2Proof.Asm
end

