-- ==== Sys2Proof/Safety.lean ====
section
/-! DEFINITION. What claims about PWMDC-CORE speak of: the invariants of a reachable state (10_state.md R22), "no fault
recorded" (70_reset_and_hazards.md R205), idleness (60_exceptions.md R184), finite and infinite runs with their
observation (R177, R205), and the fairness liveness claims assume (R178). -/

namespace Sys2Proof.Machine

/-- The state elements of an absent channel hold the filler (log entry 8). -/
def ChanState.absent : ChanState := { out := false, duty := 0, level := 0 }

/-- The state elements of an absent site hold the filler (log entry 8). -/
def SiteState.absent : SiteState := { pend := false, pinl := false, esel := .rising, ie := false, dbc := 0 }

/-- The state elements of an absent fade sequencer hold the filler (log entry 8). -/
def FadeState.absent : FadeState := { fcnt := 0, phase := .redToGreen, fivl := 0 }

/-- What 10_state.md R22 and R32 say of one channel that exists. -/
structure State.ChanInv (s : State) (c : Chan) (cc : ChanCfg) : Prop where
  /-- R22 item 2. -/
  duty_le_period : (s.duty c).toNat ≤ s.cfg.period
  /-- R22 item 3. -/
  level_alias : cc.kind.isLevel = true →
    (s.level c).toNat ≤ 10 ∧ (s.duty c).toNat = s.cfg.levelDuty (s.level c).toNat
  /-- R32: L[c] of a channel that is not LEVEL is 0. -/
  level_zero : cc.kind.isLevel = false → s.level c = 0

/-- What 10_state.md R22 items 4 and 5 say of the fade sequencer. -/
structure State.FadeInv (s : State) (p : FadeCfg) : Prop where
  other_zero : s.duty s.phase.other = 0
  sum_period : (s.duty s.phase.falling).toNat + (s.duty s.phase.rising).toNat = s.cfg.period
  falling_ge_step : p.step ≤ (s.duty s.phase.falling).toNat
  falling_multiple : (s.duty s.phase.falling).toNat % p.step = 0
  fcnt_lt : s.fcnt.toNat < s.fivl.toNat
  fivl_ge : p.ivlInit ≤ s.fivl.toNat
  fivl_le : s.fivl.toNat ≤ p.ivlMax

/-- The invariants of 10_state.md R22, for a well-formed configuration, with the model's own convention that absent
elements hold their filler (log entry 8). -/
structure State.Inv (s : State) : Prop where
  config : s.cfg.wellFormed = true
  /-- R22 item 1. -/
  cnt_lt_period : s.cnt.toNat < s.cfg.period
  /-- R22 items 2 and 3, R32. -/
  chan : ∀ c cc, s.cfg.chan? c = some cc → s.ChanInv c cc
  /-- R22 items 4 and 5. -/
  fade_seq : ∀ p, s.cfg.fade = some p → s.FadeInv p
  /-- R22 item 6. -/
  dbc_le : ∀ i, s.cfg.hasSite i = true → (s.dbc i).toNat ≤ s.cfg.dbWindow
  /-- R22 item 7: ERR[0] = 0 and ERR[15:10] = 0. -/
  err_bits : s.err &&& 0xFC01#16 = 0
  /-- Log entry 8. -/
  chan_absent : ∀ c, s.cfg.chan? c = none → s.chans.get c = ChanState.absent
  /-- Log entry 8. -/
  site_absent : ∀ i, s.cfg.site? i = none → s.sites.get i = SiteState.absent
  /-- Log entry 8. -/
  fade_absent : s.cfg.fade = none → s.fade = FadeState.absent

/-! What an operation leaves as it was. -/

/-- The model's own fields besides the response: the configuration and the rest of the stream. -/
def State.SameEnv (s t : State) : Prop := t.cfg = s.cfg ∧ t.stream = s.stream

/-- Every element of channel `c`. -/
def State.SameChan (s t : State) (c : Chan) : Prop :=
  t.out c = s.out c ∧ t.duty c = s.duty c ∧ t.level c = s.level c

/-- Every element of site `i`. -/
def State.SameSite (s t : State) (i : Site) : Prop :=
  t.pend i = s.pend i ∧ t.pinl i = s.pinl i ∧ t.esel i = s.esel i ∧ t.ie i = s.ie i ∧ t.dbc i = s.dbc i

/-- Every element of the fade sequencer. -/
def State.SameFade (s t : State) : Prop := t.fcnt = s.fcnt ∧ t.phase = s.phase ∧ t.fivl = s.fivl

/-- Every element but OUT, and the model's own fields but the response (00_scope.md R3). -/
def State.EqButOut (s t : State) : Prop :=
  s.SameEnv t ∧ t.cnt = s.cnt ∧ t.err = s.err ∧ (∀ c, t.duty c = s.duty c ∧ t.level c = s.level c) ∧
    (∀ i, s.SameSite t i) ∧ s.SameFade t

/-- The same instance with every channel's realisation SW (42_waveform.md R127). -/
def State.allSoftware (s : State) : State :=
  { s with cfg := { s.cfg with channels := s.cfg.channels.map fun c => { c with mode := .sw } } }

/-- "No fault recorded": ERR = 0 (60_exceptions.md R168, 70_reset_and_hazards.md R205). -/
def State.noFault (s : State) : Prop := s.err = 0

/-- Idle: no SVC is enabled (60_exceptions.md R184). -/
def State.idle (s : State) : Prop := ∀ i, s.cfg.hasSite i = true → s.svcEnabled i = false

/-- The state a completed operation leaves; a refused operation leaves the state it found. -/
def State.after (s : State) (o : Host.Outcome State Fault Refusal) : State :=
  match o with
  | .next t => t
  | .fault _ => s
  | .refused _ => s

/-- The state after one operation word. -/
def State.afterWord (s : State) (w : OpWord) : State := s.after (runWord w s)

/-- The state after a finite run (R177): the words in order. -/
def State.afterWords (s : State) : List OpWord → State
  | [] => s
  | w :: ws => (s.afterWord w).afterWords ws

/-- What one operation of a run shows: its response word, and after a TICK the output levels (R205). -/
structure Observed where
  response : Option OpWord
  outputs  : Option (List Bool)
deriving DecidableEq, Repr

/-- The output levels of the channels that exist, in the order of their numbers. -/
def State.outputs (s : State) : List Bool := Chan.all.filterMap s.pwmOut

/-- What the operation `w` that led to `s` shows. -/
def State.observed (s : State) (w : OpWord) : Observed :=
  { response := s.hostPort
    outputs := if w = encode .tick then some s.outputs else none }

/-- The observation of a finite run (R205): what each operation shows, and the end state. -/
def State.observe (s : State) : List OpWord → List Observed × State
  | [] => ([], s)
  | w :: ws =>
    let t := s.afterWord w
    let (seen, last) := t.observe ws
    (t.observed w :: seen, last)

/-- An infinite run: the state before operation `n` of an operation sequence (R177). -/
def State.trace (s : State) (ops : Nat → OpWord) : Nat → State
  | 0 => s
  | n + 1 => (s.trace ops n).afterWord (ops n)

/-- The number of TICKs among the first `n` operations of a sequence. -/
def ticksAmong (ops : Nat → OpWord) (n : Nat) : Nat :=
  ((List.range n).filter fun m => ops m = encode .tick).length

/-- The state after `k` TICKs back to back. -/
def State.afterTicks (s : State) (k : Nat) : State := s.afterWords (List.replicate k (encode .tick))

/-- The state after `k` FTICKs back to back. -/
def State.afterFticks (s : State) (k : Nat) : State := s.afterWords (List.replicate k (encode .ftick))

/-- The state after the FTICKs that bring FCNT to FIVL: the next fade tick is the last of them (43_fade.md R134). -/
def State.nextFadeTick (s : State) : State := s.afterFticks (s.fivl.toNat - s.fcnt.toNat)

/-- The state after `k` fade ticks (R134). -/
def State.afterFadeTicks (s : State) : Nat → State
  | 0 => s
  | k + 1 => (s.afterFadeTicks k).nextFadeTick

/-- Fairness (a) of 60_exceptions.md R178: an SVC that stays enabled is eventually delivered. -/
def State.FairServices (s : State) (ops : Nat → OpWord) : Prop :=
  ∀ i n, s.cfg.hasSite i = true → (∀ m, n ≤ m → (s.trace ops m).svcEnabled i = true) →
    ∃ m, n ≤ m ∧ ops m = encode (.svc i.num)

/-- Fairness (b) of R178: TICKs keep coming for ever, and FTICKs when FADE_EN = 1. -/
def State.FairTimers (s : State) (ops : Nat → OpWord) : Prop :=
  (∀ n, ∃ m, n ≤ m ∧ ops m = encode .tick) ∧
    (s.cfg.fadeEn = true → ∀ n, ∃ m, n ≤ m ∧ ops m = encode .ftick)

end Sys2Proof.Machine
end

