-- ==== Sys2Proof/Certificates/Slice0/Obligations.lean ====
section
/-! DEFINITION. The statements for the provers. Each docstring names the rules of spec/ it formalises. Statements speak
of every configuration the spec calls well formed, not of the preset the model boots (log entry 2). -/

open Sys2Proof Sys2Proof.Machine

/-! ## Decoding and the operation stream -/

/-- When the next word of the stream decodes to an operation, a step takes the word from the stream and is `exec` of
that operation (R6, R68; the stream is the model's field, log entry 3). -/
def Obligations.StepRunsDecodedOperation : Prop :=
  ∀ (s : State) (w : OpWord) (rest : List OpWord) (i : Instr),
    s.cfg.wellFormed = true → s.stream = w :: rest → decode w = .ok i →
      step s = exec i { s with stream := rest }

/-- When the next word decodes to ILLEGAL, a step takes the word and is the fault entry of code 1: only ERR[1] and the
response change, and the response word is 0x80010000 (R159, R167). -/
def Obligations.StepRefusesIllegalWord : Prop :=
  ∀ (s : State) (w : OpWord) (rest : List OpWord) (e : DecodeError),
    s.cfg.wellFormed = true → s.stream = w :: rest → decode w = .error e →
      ∃ t, step s = .next t ∧
        t = { s with stream := rest, err := s.err ||| 0x0002#16, resp := some (.fault .illegalOp) } ∧
        t.hostPort = some 0x80010000#32

/-- With no operation presented the block waits and holds everything. The model's own convention (log entry 4), read
from R184 and R192. -/
def Obligations.StepWaitsForAnOperation : Prop :=
  ∀ s : State, s.cfg.wellFormed = true → s.stream = [] → step s = .next s

/-- A configuration that is not well formed builds no machine and has no step; a well-formed one boots to its reset
state (R13, R190). -/
def Obligations.IllFormedConfigurationHasNoRun : Prop :=
  (∀ cfg : Config, cfg.wellFormed = false → State.boot cfg = none) ∧
  (∀ cfg : Config, cfg.wellFormed = true → State.boot cfg = some (State.resetOf cfg)) ∧
  (∀ s : State, s.cfg.wellFormed = false → step s = .refused .illFormedConfig)

/-- What the check of a configuration means: the five items of R13 together with the ranges R8 to R12 give the
parameters (log entry 7 for taking the ranges in). -/
def Obligations.WellFormedConfigurationCharacterised : Prop :=
  ∀ cfg : Config, cfg.wellFormed = true ↔
    (1 ≤ cfg.period ∧ cfg.period ≤ 65535 ∧ 1 ≤ cfg.nch ∧ cfg.nch ≤ 3 ∧ cfg.nsites ≤ 2 ∧ cfg.dbWindow ≤ 65535) ∧
    (cfg.fadeEn = true ↔ ∃ cc ∈ cfg.channels, cc.kind = .fade) ∧
    (cfg.fadeEn = true → cfg.nch = 3 ∧ ∀ cc ∈ cfg.channels, cc.kind = .fade) ∧
    (∀ p, cfg.fade = some p → 1 ≤ p.step ∧ p.step ≤ cfg.period ∧ cfg.period % p.step = 0 ∧ 1 ≤ p.ivlInit ∧
      p.ivlInit ≤ p.ivlMax ∧ p.ivlMax ≤ 65535 ∧ 1 ≤ p.accel ∧ p.accel ≤ 65535) ∧
    (∀ cc ∈ cfg.channels, (∀ d, cc.kind = .duty d → d ≤ cfg.period) ∧ (∀ l, cc.kind = .level l → l ≤ 10)) ∧
    (cfg.levelTable.length = 11 ∧ ∀ d ∈ cfg.levelTable, d ≤ cfg.period) ∧
    (∀ sc ∈ cfg.sites, 1 ≤ sc.step ∧ sc.step ≤ 65535 ∧ ∀ c, sc.target = some c →
      ∃ cc, cfg.chan? c = some cc ∧ cc.kind ≠ .fade ∧
        (cc.kind.isDuty = true → 0 ≤ sc.min ∧ sc.min ≤ sc.max ∧ sc.max ≤ cfg.period) ∧
        (cc.kind.isLevel = true → 0 ≤ sc.min ∧ sc.min ≤ sc.max ∧ sc.max ≤ 10))

/-- Decoding the word of a well-formed operation gives the operation back, at every operand value the encoding admits
(R77 to R83, R87). -/
def Obligations.DecodeOfEncode : Prop :=
  ∀ i : Instr, i.wellFormed = true → decode (encode i) = .ok i

/-- A word that decodes to an operation is that operation's word, and the operation is well formed: each legal word has
one meaning and none shares it (R77 to R83, R87). -/
def Obligations.EncodeOfDecode : Prop :=
  ∀ (w : OpWord) (i : Instr), decode w = .ok i → i.wellFormed = true ∧ encode i = w

/-- The words of R92, which the spec marks as derived from R77 to R82: from their text to the operation, and the fault
its last example names. -/
def Obligations.SpecExampleWords : Prop :=
  (Asm.assemble 1000 "tick" = some [0x10000000#32] ∧ decode 0x10000000#32 = .ok .tick) ∧
  (Asm.assemble 1000 "ftick" = some [0x20000000#32] ∧ decode 0x20000000#32 = .ok .ftick) ∧
  (Asm.assemble 1000 "pin 1, 1" = some [0x31000001#32] ∧ decode 0x31000001#32 = .ok (.pin 1 true)) ∧
  (Asm.assemble 1000 "pin 0, 0" = some [0x30000000#32] ∧ decode 0x30000000#32 = .ok (.pin 0 false)) ∧
  (Asm.assemble 1000 "svc 1" = some [0x41000000#32] ∧ decode 0x41000000#32 = .ok (.svc 1)) ∧
  (Asm.assemble 1000 "rd CNT" = some [0x50010000#32] ∧ decode 0x50010000#32 = .ok (.rd 0x01)) ∧
  (Asm.assemble 1000 "rd D0" = some [0x50100000#32] ∧ decode 0x50100000#32 = .ok (.rd 0x10)) ∧
  (Asm.assemble 1000 "wr D0, 1000" = some [0x601003E8#32] ∧ decode 0x601003E8#32 = .ok (.wr 0x10 1000)) ∧
  (Asm.assemble 1000 "wr L0, 10" = some [0x6014000A#32] ∧ decode 0x6014000A#32 = .ok (.wr 0x14 10)) ∧
  (Asm.assemble 1000 "wr SITECFG0, 3" = some [0x60080003#32] ∧ decode 0x60080003#32 = .ok (.wr 0x08 3)) ∧
  (Asm.assemble 1000 "wr D0, 1001" = some [0x601003E9#32] ∧ decode 0x601003E9#32 = .ok (.wr 0x10 1001)) ∧
  (∀ s : State, s.cfg.isDutyChan .ch0 = true → s.cfg.period = 1000 →
    exec (.wr 0x10 1001) s = .next { s with err := s.err ||| 0x0004#16, resp := some (.fault .outOfRangeDuty) })

/-- R84: a word whose OP is 0x0 or in 0x7 to 0xF raises ILLEGAL_OP; the all-zero word is illegal. -/
def Obligations.ReservedOpcodeRaisesIllegalOp : Prop :=
  (∀ (s : State) (w : OpWord), w.toNat / 2 ^ 28 = 0 ∨ 7 ≤ w.toNat / 2 ^ 28 →
    runWord w s = .next { s with err := s.err ||| 0x0002#16, resp := some (.fault .illegalOp) }) ∧
  decode 0#32 = .error .reservedOp

/-- R85: a word with a defined OP and any reserved bit of R77 to R82 set raises ILLEGAL_OP; the example 0x30000002. The
masks are the reserved bits: all but OP for TICK and FTICK, 23:1 for PIN, 23:0 for SVC, 27:24 and 15:0 for RD, 27:24 for
WR. -/
def Obligations.ReservedBitRaisesIllegalOp : Prop :=
  (∀ (s : State) (w : OpWord),
    (opField w = 0x1#4 ∧ w &&& 0x0FFFFFFF#32 ≠ 0) ∨ (opField w = 0x2#4 ∧ w &&& 0x0FFFFFFF#32 ≠ 0) ∨
    (opField w = 0x3#4 ∧ w &&& 0x00FFFFFE#32 ≠ 0) ∨ (opField w = 0x4#4 ∧ w &&& 0x00FFFFFF#32 ≠ 0) ∨
    (opField w = 0x5#4 ∧ w &&& 0x0F00FFFF#32 ≠ 0) ∨ (opField w = 0x6#4 ∧ w &&& 0x0F000000#32 ≠ 0) →
    runWord w s = .next { s with err := s.err ||| 0x0002#16, resp := some (.fault .illegalOp) }) ∧
  (∀ s : State, runWord 0x30000002#32 s =
    .next { s with err := s.err ||| 0x0002#16, resp := some (.fault .illegalOp) })

/-- No two rows of the opcode table match one word, and the decoder accepts exactly the words some row matches, with
that row's operation (R87). -/
def Obligations.OneTableRowPerWord : Prop :=
  (∀ (w : OpWord) (r q : OpRow), r ∈ opcodeTable → q ∈ opcodeTable → r.selects w = true → q.selects w = true → r = q) ∧
  (∀ (w : OpWord) (i : Instr), decode w = .ok i → i.row ∈ opcodeTable ∧ i.row.selects w = true) ∧
  (∀ (w : OpWord) (e : DecodeError), decode w = .error e → ∀ r ∈ opcodeTable, r.selects w = false)

/-- The byte form of a word: least significant byte first, and reading the four bytes back gives the word and leaves the
rest (R61). -/
def Obligations.TraceBytesAreLittleEndian : Prop :=
  ∀ (w : OpWord) (rest : List Byte),
    wordOfBytes (wordBytes w ++ rest) = some (w, rest) ∧
    (wordBytes w).map BitVec.toNat =
      [w.toNat % 256, w.toNat / 256 % 256, w.toNat / 65536 % 256, w.toNat / 16777216 % 256]

/-- Every operation word has a next state and produces one response (R161, R89): OK with data x is the word x; FAULT(c)
is 0x80000000 + c * 0x10000, so bits 30:24 and 15:0 are 0; DATA is 0 for every operation but an OK RD. -/
def Obligations.EveryOperationAnswersOneResponse : Prop :=
  (∀ x : Word, (Response.ok x).word.toNat = x.toNat) ∧
  (∀ c : FaultCode, (Response.fault c).word.toNat = 0x80000000 + c.code * 0x10000) ∧
  (∀ (s : State) (w : OpWord), ∃ t r, runWord w s = .next t ∧ t.resp = some r ∧ t.hostPort = some r.word ∧
    ∀ x, r = .ok x → (∃ n, decode w = .ok (.rd n)) ∨ x = 0)

/-- An operand that does not fit its field is refused by the assembler, not truncated (R90). -/
def Obligations.AssemblerRefusesUnfitOperands : Prop :=
  ∀ period s v n x : Nat,
    (15 < s → Asm.expand period (.pin s v) = none ∧ Asm.expand period (.svc s) = none) ∧
    (1 < v → Asm.expand period (.pin s v) = none) ∧
    (255 < n → Asm.expand period (.rd n) = none ∧ Asm.expand period (.wr n x) = none) ∧
    (65535 < x → Asm.expand period (.wr n x) = none)

/-- The expansions of the pseudo-operations (R91), for operands that fit. -/
def Obligations.PseudoOperationsExpand : Prop :=
  ∀ period n s ch x ie esel : Nat, 1 ≤ n → 1 ≤ period → s ≤ 15 → ch ≤ 2 → x ≤ 65535 → ie ≤ 1 → esel ≤ 1 →
    Asm.expand period (.tickN n) = some (List.replicate n .tick) ∧
    Asm.expand period .period = some (List.replicate period .tick) ∧
    Asm.expand period (.ftickN n) = some (List.replicate n .ftick) ∧
    Asm.expand period (.press s) = some [.pin s true, .pin s false] ∧
    Asm.expand period (.button s) = some [.pin s true, .pin s false, .svc s] ∧
    Asm.expand period (.wrd ch x) = some [.wr (0x10 + ch) x] ∧
    Asm.expand period (.rdd ch) = some [.rd (0x10 + ch)] ∧
    Asm.expand period (.wrl ch x) = some [.wr (0x14 + ch) x] ∧
    Asm.expand period (.cfg s ie esel) = some [.wr (0x08 + s) (ie + 2 * esel)]

/-! ## Reset, the invariants, the fault entry -/

/-- The reset values of R189, for every well-formed configuration. -/
def Obligations.ResetValues : Prop :=
  ∀ cfg : Config, cfg.wellFormed = true →
    let s := State.resetOf cfg
    s.cnt = 0 ∧ s.err = 0 ∧
    (∀ c d m, cfg.chan? c = some ⟨.duty d, m⟩ → (s.duty c).toNat = d ∧ s.level c = 0) ∧
    (∀ c l m, cfg.chan? c = some ⟨.level l, m⟩ →
      (s.level c).toNat = l ∧ cfg.levelTable[l]? = some (s.duty c).toNat) ∧
    (cfg.fadeEn = true → (s.duty .ch0).toNat = cfg.period ∧ s.duty .ch1 = 0 ∧ s.duty .ch2 = 0 ∧
      ∀ c, s.level c = 0) ∧
    (∀ c, cfg.hasChan c = true → s.out c = decide (s.duty c ≠ 0)) ∧
    (∀ i sc, cfg.site? i = some sc →
      s.pend i = false ∧ s.pinl i = sc.pinIdle ∧ s.esel i = sc.eselInit ∧ s.ie i = sc.ieInit ∧ s.dbc i = 0) ∧
    (∀ p, cfg.fade = some p → s.fcnt = 0 ∧ s.phase.num = 0 ∧ s.fivl.toNat = p.ivlInit)

/-- The reset state of every well-formed configuration satisfies every invariant of R22, and no SVC is enabled in it
(R191). The
invariants include the model's own convention for absent elements (log entry 8). -/
def Obligations.ResetSatisfiesInvariants : Prop :=
  ∀ cfg : Config, cfg.wellFormed = true →
    (State.resetOf cfg).Inv ∧ (State.resetOf cfg).idle

/-- The invariants of R22 hold in the state the model boots (preset LED2, log entry 2). -/
def Obligations.BootStateSatisfiesInvariants : Prop := State.reset.Inv

/-- Every step keeps the invariants of R22, whatever word comes next; with them the model's own convention that absent
elements hold their filler (log entry 8). -/
def Obligations.StepKeepsInvariants : Prop :=
  ∀ s t : State, s.Inv → step s = .next t → t.Inv

/-- No step changes the configuration (R19, R190), PERIOD with it (R33). That it stands in State is log entry 1. -/
def Obligations.StepKeepsConfiguration : Prop :=
  ∀ s t : State, step s = .next t → t.cfg = s.cfg

/-- Fault entry (R165): when the response to an operation word is FAULT(c), ERR[c] is 1, no other bit of ERR and no
other element has changed, and the response word is 0x80000000 + c * 0x10000. -/
def Obligations.FaultEntryChangesOnlyErr : Prop :=
  ∀ (s t : State) (w : OpWord) (c : FaultCode), runWord w s = .next t → t.resp = some (.fault c) →
    t = { s with err := t.err, resp := some (.fault c) } ∧
    (∀ k : Nat, k < 16 → t.err.getLsbD k = (s.err.getLsbD k || k == c.code)) ∧
    ∃ r, t.hostPort = some r ∧ r.toNat = 0x80000000 + c.code * 0x10000

/-- ERR is sticky: no operation clears a bit of it, and one that answers OK leaves it as it was (R34, R168). -/
def Obligations.ErrIsSticky : Prop :=
  ∀ (s t : State) (w : OpWord), runWord w s = .next t →
    s.err &&& t.err = s.err ∧ ∀ x, t.resp = some (.ok x) → t.err = s.err

/-! ## TICK: the waveform generator -/

/-- TICK completes (R118): CNT, every DBC and every OUT take their new values, the response is OK with data 0, and
nothing else changes. -/
def Obligations.TickResultAndFrame : Prop :=
  ∀ s : State, s.cfg.wellFormed = true → ∃ t, exec .tick s = .next t ∧
    t.cnt.toNat = (s.cnt.toNat + 1) % s.cfg.period ∧
    (∀ i, s.cfg.hasSite i = true → (t.dbc i).toNat = (s.dbc i).toNat - 1) ∧
    (∀ c, s.cfg.hasChan c = true → t.out c =
      if t.cnt = 0 then decide (s.duty c ≠ 0)
      else if (s.cfg.cmpMode = .eq ∧ t.cnt = s.duty c) ∨ (s.cfg.cmpMode = .ge ∧ s.duty c ≤ t.cnt) then false
      else s.out c) ∧
    t.resp = some (.ok 0) ∧ s.SameEnv t ∧ t.err = s.err ∧ s.SameFade t ∧
    (∀ c, t.duty c = s.duty c ∧ t.level c = s.level c ∧ (s.cfg.hasChan c = false → t.out c = s.out c)) ∧
    (∀ i, t.pend i = s.pend i ∧ t.pinl i = s.pinl i ∧ t.esel i = s.esel i ∧ t.ie i = s.ie i ∧
      (s.cfg.hasSite i = false → t.dbc i = s.dbc i))

/-- R119: the TICK that brings CNT to 0 sets OUT to 1 for every channel whose D is not 0, and to 0 for every channel
whose D is 0; then the whole period is LOW, whatever OUT was before. -/
def Obligations.OverflowDrivesOutputs : Prop :=
  ∀ s : State, s.cfg.wellFormed = true → (s.cnt.toNat + 1) % s.cfg.period = 0 →
    ∃ t, exec .tick s = .next t ∧ t.cnt = 0 ∧
      ∀ c, s.cfg.hasChan c = true →
        (s.duty c ≠ 0 → t.out c = true) ∧
        (s.duty c = 0 → ∀ k, k < s.cfg.period → (t.afterTicks k).out c = false)

/-- R121: on a TICK whose new CNT is not 0, a channel has a compare match when the new CNT equals D (EQ) or is at least
D (GE), and then OUT becomes 0; without a match OUT is as it was. The value compared is the one D holds at that TICK. -/
def Obligations.CompareMatchDrivesLow : Prop :=
  ∀ s : State, s.cfg.wellFormed = true → (s.cnt.toNat + 1) % s.cfg.period ≠ 0 →
    ∃ t, exec .tick s = .next t ∧ ∀ c, s.cfg.hasChan c = true →
      (s.cfg.cmpMode = .eq → t.cnt.toNat = (s.duty c).toNat → t.out c = false) ∧
      (s.cfg.cmpMode = .ge → (s.duty c).toNat ≤ t.cnt.toNat → t.out c = false) ∧
      (s.cfg.cmpMode = .eq → t.cnt.toNat ≠ (s.duty c).toNat → t.out c = s.out c) ∧
      (s.cfg.cmpMode = .ge → t.cnt.toNat < (s.duty c).toNat → t.out c = s.out c)

/-- R120: the counter counts modulo PERIOD, so from any count a period is exactly PERIOD TICKs. -/
def Obligations.CounterCountsModuloPeriod : Prop :=
  ∀ s : State, s.Inv →
    (∀ k, (s.afterTicks k).cnt.toNat = (s.cnt.toNat + k) % s.cfg.period) ∧
    (s.afterTicks s.cfg.period).cnt = s.cnt ∧
    (s.cnt = 0 → ∀ k, 0 < k → k < s.cfg.period → (s.afterTicks k).cnt ≠ 0)

/-- The steady waveform (R124, R122): from an overflow on, in every run in which D[c] holds its value, whatever
operations are interleaved, OUT[c] at count k of that period is 1 for k < D[c] and 0 for D[c] <= k < PERIOD. -/
def Obligations.SteadyWaveform : Prop :=
  ∀ (s : State) (c : Chan) (ops : Nat → OpWord) (n : Nat),
    s.Inv → s.cfg.hasChan c = true → s.cnt = 0 → s.out c = decide (s.duty c ≠ 0) →
    (∀ m, m ≤ n → (s.trace ops m).duty c = s.duty c) → ticksAmong ops n < s.cfg.period →
      (s.trace ops n).cnt.toNat = ticksAmong ops n ∧
      (s.trace ops n).out c = decide (ticksAmong ops n < (s.duty c).toNat)

/-- The HIGH time of a steady period is exactly D[c] TICKs, under EQ and GE alike, so D[c] = 0 gives LOW throughout and
D[c] = PERIOD HIGH throughout (R124, R122). -/
def Obligations.HighTimeIsExactlyDuty : Prop :=
  ∀ (s : State) (c : Chan), s.Inv → s.cfg.hasChan c = true → s.cnt = 0 → s.out c = decide (s.duty c ≠ 0) →
    ((List.range s.cfg.period).filter fun k => (s.afterTicks k).out c).length = (s.duty c).toNat

/-- The missed threshold (R125): while OUT[c] = 1 and D[c] is at or below CNT, no compare match occurs under EQ in the
rest of the period, whatever operations are interleaved as long as D[c] holds; under GE the next TICK sets OUT[c] to 0
unless it is the overflow. -/
def Obligations.MissedThreshold : Prop :=
  (∀ (s : State) (c : Chan) (ops : Nat → OpWord) (n : Nat),
    s.Inv → s.cfg.hasChan c = true → s.cfg.cmpMode = .eq → s.out c = true → (s.duty c).toNat ≤ s.cnt.toNat →
    (∀ m, m ≤ n → (s.trace ops m).duty c = s.duty c) → s.cnt.toNat + ticksAmong ops n < s.cfg.period →
      (s.trace ops n).out c = true) ∧
  (∀ (s : State) (c : Chan), s.Inv → s.cfg.hasChan c = true → s.cfg.cmpMode = .ge →
    (s.duty c).toNat ≤ s.cnt.toNat → s.cnt.toNat + 1 < s.cfg.period →
      ∃ t, exec .tick s = .next t ∧ t.out c = false)

/-- The race property (R129, R123), for any later operations in the same period. Before the compare match (OUT[c] = 1)
and with the value D[c] now holds above CNT, that value decides this period: OUT[c] is 1 up to it and 0 from it on. After
the compare match OUT[c] stays 0 until the overflow, whatever is written to D[c]: an update is seen from the next period
on. -/
def Obligations.RaceProperty : Prop :=
  (∀ (s : State) (c : Chan) (ops : Nat → OpWord) (n : Nat),
    s.Inv → s.cfg.hasChan c = true → s.out c = true → s.cnt.toNat < (s.duty c).toNat →
    (∀ m, m ≤ n → (s.trace ops m).duty c = s.duty c) → s.cnt.toNat + ticksAmong ops n < s.cfg.period →
      (s.trace ops n).out c = decide (s.cnt.toNat + ticksAmong ops n < (s.duty c).toNat)) ∧
  (∀ (s : State) (c : Chan) (ops : Nat → OpWord) (n : Nat),
    s.Inv → s.out c = false → s.cnt.toNat + ticksAmong ops n < s.cfg.period → (s.trace ops n).out c = false)

/-- R131, which the spec marks as derived from R118 to R120: with PERIOD = 1, CNT is always 0 and OUT is (D != 0) after
every TICK, with D in {0, 1}. -/
def Obligations.PeriodOne : Prop :=
  ∀ s : State, s.Inv → s.cfg.period = 1 →
    s.cnt = 0 ∧ ∃ t, exec .tick s = .next t ∧ t.cnt = 0 ∧
      ∀ c, s.cfg.hasChan c = true → (s.duty c = 0 ∨ s.duty c = 1) ∧ t.out c = decide (s.duty c ≠ 0)

/-- No output level feeds back into another element (R3): two states that differ in OUT alone step to states that differ
in OUT alone. -/
def Obligations.OutputsNeverFeedBack : Prop :=
  ∀ s t s' : State, s.EqButOut t → step s = .next s' → ∃ t', step t = .next t' ∧ s'.EqButOut t'

/-- CH_MODE changes no state and no output (R127): an instance and the same instance with every channel SW take the
same steps and start from the same reset values. -/
def Obligations.ChannelModeChangesNothing : Prop :=
  (∀ s t : State, step s = .next t → step s.allSoftware = .next t.allSoftware) ∧
  (∀ cfg : Config, (State.resetOf cfg).allSoftware = State.resetOf (State.resetOf cfg).allSoftware.cfg)

/-! ## FTICK: the fade sequencer -/

/-- R135: with FADE_EN = 0 an FTICK changes no state and answers OK. -/
def Obligations.FtickWithoutSequencer : Prop :=
  ∀ s : State, s.cfg.fadeEn = false → exec .ftick s = .next { s with resp := some (.ok 0) }

/-- An FTICK that is not a fade tick advances FCNT by one and changes nothing else (R133, R134). -/
def Obligations.FtickBetweenFadeTicks : Prop :=
  ∀ s : State, s.Inv → s.cfg.fadeEn = true → s.fcnt.toNat + 1 < s.fivl.toNat →
    ∃ t, exec .ftick s = .next t ∧ t.fcnt.toNat = s.fcnt.toNat + 1 ∧ t.phase = s.phase ∧ t.fivl = s.fivl ∧
      t.resp = some (.ok 0) ∧ s.SameEnv t ∧ t.cnt = s.cnt ∧ t.err = s.err ∧
      (∀ c, s.SameChan t c) ∧ (∀ i, s.SameSite t i)

/-- The fade tick (R133, R136 to R139): the channel numbered PHASE loses FADE_STEP, the channel numbered
(PHASE + 1) mod 3 gains it, PHASE advances exactly when the falling channel reaches 0, FIVL is lengthened, FCNT restarts,
and nothing else changes. -/
def Obligations.FadeTickResultAndFrame : Prop :=
  ∀ (s : State) (p : FadeCfg) (f r : Chan), s.Inv → s.cfg.fade = some p → s.fcnt.toNat + 1 = s.fivl.toNat →
    f.num = s.phase.num → r.num = (s.phase.num + 1) % 3 →
    ∃ t, exec .ftick s = .next t ∧
      (t.duty f).toNat + p.step = (s.duty f).toNat ∧ (t.duty r).toNat = (s.duty r).toNat + p.step ∧
      t.fcnt = 0 ∧
      (t.duty f = 0 → t.phase.num = (s.phase.num + 1) % 3) ∧ (t.duty f ≠ 0 → t.phase = s.phase) ∧
      (s.fivl.toNat + p.accel ≤ p.ivlMax → t.fivl.toNat = s.fivl.toNat + p.accel) ∧
      (p.ivlMax < s.fivl.toNat + p.accel → p.roll = .hold → t.fivl.toNat = p.ivlMax) ∧
      (p.ivlMax < s.fivl.toNat + p.accel → p.roll = .reset → t.fivl.toNat = p.ivlInit) ∧
      t.resp = some (.ok 0) ∧ s.SameEnv t ∧ t.cnt = s.cnt ∧ t.err = s.err ∧
      (∀ c, t.out c = s.out c ∧ t.level c = s.level c ∧ (c ≠ f → c ≠ r → t.duty c = s.duty c)) ∧
      (∀ i, s.SameSite t i)

/-- The fade cycle (R141, R142): from reset, each phase lasts exactly PERIOD / FADE_STEP fade ticks, within it the
falling channel goes down and the rising one up by FADE_STEP a fade tick, and after 3 * PERIOD / FADE_STEP fade ticks
the channels and PHASE are as at reset. -/
def Obligations.FadeCycleReturns : Prop :=
  ∀ (cfg : Config) (p : FadeCfg), cfg.wellFormed = true → cfg.fade = some p →
    let s := State.resetOf cfg
    let n := cfg.period / p.step
    (∀ j, j < n →
      (s.afterFadeTicks j).phase.num = 0 ∧ ((s.afterFadeTicks j).duty .ch0).toNat = cfg.period - j * p.step ∧
      ((s.afterFadeTicks j).duty .ch1).toNat = j * p.step ∧ (s.afterFadeTicks j).duty .ch2 = 0) ∧
    (∀ j, j < n →
      (s.afterFadeTicks (n + j)).phase.num = 1 ∧ (s.afterFadeTicks (n + j)).duty .ch0 = 0 ∧
      ((s.afterFadeTicks (n + j)).duty .ch1).toNat = cfg.period - j * p.step ∧
      ((s.afterFadeTicks (n + j)).duty .ch2).toNat = j * p.step) ∧
    (∀ j, j < n →
      (s.afterFadeTicks (2 * n + j)).phase.num = 2 ∧
      ((s.afterFadeTicks (2 * n + j)).duty .ch0).toNat = j * p.step ∧
      (s.afterFadeTicks (2 * n + j)).duty .ch1 = 0 ∧
      ((s.afterFadeTicks (2 * n + j)).duty .ch2).toNat = cfg.period - j * p.step) ∧
    (s.afterFadeTicks (3 * n)).phase = s.phase ∧ ∀ c, (s.afterFadeTicks (3 * n)).duty c = s.duty c

/-- The fade schedule (R143, R144): the interval after j fade ticks from reset is FIVL_INIT + j * FADE_ACCEL while that
is at most FIVL_MAX; the k-th fade tick is the FTICK numbered k * FIVL_INIT + FADE_ACCEL * k * (k - 1) / 2 while the
intervals before it have not rolled over; the fade tick after the last that fits saturates (HOLD) or returns to FIVL_INIT
(RESET). -/
def Obligations.FadeSchedule : Prop :=
  ∀ (cfg : Config) (p : FadeCfg), cfg.wellFormed = true → cfg.fade = some p →
    let s := State.resetOf cfg
    (∀ j, p.ivlInit + j * p.accel ≤ p.ivlMax → (s.afterFadeTicks j).fivl.toNat = p.ivlInit + j * p.accel) ∧
    (∀ k, p.ivlInit + (k - 1) * p.accel ≤ p.ivlMax →
      s.afterFticks (k * p.ivlInit + p.accel * (k * (k - 1) / 2)) = s.afterFadeTicks k) ∧
    (let jmax := (p.ivlMax - p.ivlInit) / p.accel;
      (p.roll = .hold → (s.afterFadeTicks (jmax + 1)).fivl.toNat = p.ivlMax) ∧
      (p.roll = .reset → (s.afterFadeTicks (jmax + 1)).fivl.toNat = p.ivlInit))

/-- Deceleration (R145): under HOLD no step decreases FIVL, and a fade tick strictly increases it until it is
FIVL_MAX. -/
def Obligations.HoldNeverSpeedsUp : Prop :=
  ∀ (s t : State) (p : FadeCfg), s.Inv → s.cfg.fade = some p → p.roll = .hold → step s = .next t →
    s.fivl.toNat ≤ t.fivl.toNat ∧
    (∀ rest, s.stream = encode .ftick :: rest → s.fcnt.toNat + 1 = s.fivl.toNat → s.fivl.toNat < p.ivlMax →
      s.fivl.toNat < t.fivl.toNat)

/-! ## PIN and SVC: the edge detector and the update -/

/-- PIN of an existing site completes (R96 to R98): PINL takes the level; an edge in the selected direction with no
lock-out running sets PEND and reloads DBC with DB_WINDOW, whatever PEND and IE are; any other PIN leaves them; nothing
else changes. -/
def Obligations.PinResultAndFrame : Prop :=
  ∀ (s : State) (i : Site) (v : Bool), s.cfg.wellFormed = true → s.cfg.hasSite i = true →
    ∃ t, exec (.pin i.num v) s = .next t ∧ t.pinl i = v ∧
      (let edge := s.pinl i ≠ v ∧ ((s.esel i = .rising ∧ v = true) ∨ (s.esel i = .falling ∧ v = false));
        (edge ∧ s.dbc i = 0 → t.pend i = true ∧ (t.dbc i).toNat = s.cfg.dbWindow) ∧
        (¬(edge ∧ s.dbc i = 0) → t.pend i = s.pend i ∧ t.dbc i = s.dbc i)) ∧
      t.esel i = s.esel i ∧ t.ie i = s.ie i ∧ (∀ j, j ≠ i → s.SameSite t j) ∧
      (∀ c, s.SameChan t c) ∧ s.SameFade t ∧ s.SameEnv t ∧ t.cnt = s.cnt ∧ t.err = s.err ∧
      t.resp = some (.ok 0)

/-- PIN and SVC of a site index not less than NSITES raise BAD_INDEX, before any state changes (R86, R97, R104). -/
def Obligations.BadSiteIndexFaults : Prop :=
  ∀ (s : State) (n : Nat) (v : Bool), s.cfg.nsites ≤ n →
    exec (.pin n v) s = .next { s with err := s.err ||| 0x0040#16, resp := some (.fault .badIndex) } ∧
    exec (.svc n) s = .next { s with err := s.err ||| 0x0040#16, resp := some (.fault .badIndex) }

/-- SVC of a site that is not pending or not enabled raises SVC_NOT_ENABLED and changes nothing else (R104). -/
def Obligations.SvcNotEnabledFaults : Prop :=
  ∀ (s : State) (i : Site), s.cfg.hasSite i = true → (s.pend i = false ∨ s.ie i = false) →
    exec (.svc i.num) s = .next { s with err := s.err ||| 0x0200#16, resp := some (.fault .svcNotEnabled) }

/-- SVC of an enabled site with a DUTY target (R100 to R102, R104): the new duty value by direction and policy, PEND
cleared, nothing else changed; OUT in particular is not written. -/
def Obligations.SvcUpdatesDuty : Prop :=
  ∀ (s : State) (i : Site) (sc : SiteCfg) (c : Chan), s.cfg.wellFormed = true → s.cfg.site? i = some sc →
    sc.target = some c → s.cfg.isDutyChan c = true → s.pend i = true → s.ie i = true →
    ∃ t, exec (.svc i.num) s = .next t ∧
      (let x : Int := (s.duty c).toNat
        let y : Int := (t.duty c).toNat;
        (sc.dir = .inc → sc.pol = .wrap → y = if x + sc.step > sc.max then sc.min else max (x + sc.step) sc.min) ∧
        (sc.dir = .dec → sc.pol = .wrap → y = if x - sc.step < sc.min then sc.max else min (x - sc.step) sc.max) ∧
        (sc.dir = .inc → sc.pol = .clamp → y = min (max (x + sc.step) sc.min) sc.max) ∧
        (sc.dir = .dec → sc.pol = .clamp → y = min (max (x - sc.step) sc.min) sc.max)) ∧
      t.pend i = false ∧ t.pinl i = s.pinl i ∧ t.esel i = s.esel i ∧ t.ie i = s.ie i ∧ t.dbc i = s.dbc i ∧
      (∀ j, j ≠ i → s.SameSite t j) ∧ t.out c = s.out c ∧ t.level c = s.level c ∧
      (∀ d, d ≠ c → s.SameChan t d) ∧ s.SameFade t ∧ s.SameEnv t ∧ t.cnt = s.cnt ∧ t.err = s.err ∧
      t.resp = some (.ok 0)

/-- SVC of an enabled site with a LEVEL target (R100 to R104, R25): the new level index by direction and policy, the
duty register its table entry in the same operation, PEND cleared, nothing else changed. -/
def Obligations.SvcUpdatesLevel : Prop :=
  ∀ (s : State) (i : Site) (sc : SiteCfg) (c : Chan), s.cfg.wellFormed = true → s.cfg.site? i = some sc →
    sc.target = some c → s.cfg.isLevelChan c = true → s.pend i = true → s.ie i = true →
    ∃ t, exec (.svc i.num) s = .next t ∧
      (let x : Int := (s.level c).toNat
        let y : Int := (t.level c).toNat;
        (sc.dir = .inc → sc.pol = .wrap → y = if x + sc.step > sc.max then sc.min else max (x + sc.step) sc.min) ∧
        (sc.dir = .dec → sc.pol = .wrap → y = if x - sc.step < sc.min then sc.max else min (x - sc.step) sc.max) ∧
        (sc.dir = .inc → sc.pol = .clamp → y = min (max (x + sc.step) sc.min) sc.max) ∧
        (sc.dir = .dec → sc.pol = .clamp → y = min (max (x - sc.step) sc.min) sc.max)) ∧
      s.cfg.levelTable[(t.level c).toNat]? = some (t.duty c).toNat ∧
      t.pend i = false ∧ t.pinl i = s.pinl i ∧ t.esel i = s.esel i ∧ t.ie i = s.ie i ∧ t.dbc i = s.dbc i ∧
      (∀ j, j ≠ i → s.SameSite t j) ∧ t.out c = s.out c ∧
      (∀ d, d ≠ c → s.SameChan t d) ∧ s.SameFade t ∧ s.SameEnv t ∧ t.cnt = s.cnt ∧ t.err = s.err ∧
      t.resp = some (.ok 0)

/-- SVC of an enabled site whose target is NONE clears PEND and changes nothing else (R104, R105). -/
def Obligations.SvcWithoutTarget : Prop :=
  ∀ (s : State) (i : Site) (sc : SiteCfg), s.cfg.site? i = some sc → sc.target = none →
    s.pend i = true → s.ie i = true →
    ∃ t, exec (.svc i.num) s = .next t ∧
      t.pend i = false ∧ t.pinl i = s.pinl i ∧ t.esel i = s.esel i ∧ t.ie i = s.ie i ∧ t.dbc i = s.dbc i ∧
      (∀ j, j ≠ i → s.SameSite t j) ∧ (∀ c, s.SameChan t c) ∧ s.SameFade t ∧ s.SameEnv t ∧
      t.cnt = s.cnt ∧ t.err = s.err ∧ t.resp = some (.ok 0)

/-- R109, which the spec marks as derived from R100 to R102: after any SVC that is carried out on a DUTY or LEVEL target,
the target value lies in [SITE_MIN, SITE_MAX], whatever it was before. -/
def Obligations.SvcLandsWithinBounds : Prop :=
  ∀ (s t : State) (i : Site) (sc : SiteCfg) (c : Chan), s.cfg.wellFormed = true → s.cfg.site? i = some sc →
    sc.target = some c → exec (.svc i.num) s = .next t → t.resp = some (.ok 0) →
      (s.cfg.isDutyChan c = true → sc.min ≤ (t.duty c).toNat ∧ ((t.duty c).toNat : Int) ≤ sc.max) ∧
      (s.cfg.isLevelChan c = true → sc.min ≤ (t.level c).toNat ∧ ((t.level c).toNat : Int) ≤ sc.max)

/-- One accepted edge yields at most one update (R106): after an SVC that is carried out, an SVC of the same site raises
SVC_NOT_ENABLED however many other operations come between, as long as none is a PIN of that site. -/
def Obligations.EdgeIsServicedOnce : Prop :=
  ∀ (s t : State) (i : Site) (ws : List OpWord), s.cfg.hasSite i = true →
    exec (.svc i.num) s = .next t → t.resp = some (.ok 0) →
    (∀ w ∈ ws, ∀ v, decode w ≠ .ok (.pin i.num v)) →
      ∃ u, exec (.svc i.num) (t.afterWords ws) = .next u ∧ u.resp = some (.fault .svcNotEnabled)

/-- The WRAP sawtooth (R112): a WRAP INC site with step k and bounds [lo, hi] that starts from lo visits lo + j * k for
j up to m = floor((hi - lo) / k), and then lo again. -/
def Obligations.WrapSawtooth : Prop :=
  ∀ (sc : SiteCfg), sc.dir = .inc → sc.pol = .wrap → 1 ≤ sc.step → sc.min ≤ sc.max →
    (∀ j : Nat, (j : Int) ≤ (sc.max - sc.min) / sc.step → (upd sc)^[j] sc.min = sc.min + j * sc.step) ∧
    (upd sc)^[((sc.max - sc.min) / sc.step).toNat + 1] sc.min = sc.min

/-- Under fairness (a) of R178, with R104's clearing of PEND: in a fair run from a state of a well-formed configuration,
no SVC stays enabled for ever. An SVC also stops being enabled when a WR clears IE (R155), so this does not say that the
service was taken. -/
def Obligations.NoServiceStaysEnabledForEver : Prop :=
  ∀ (s : State) (ops : Nat → OpWord) (i : Site) (n : Nat), s.cfg.wellFormed = true → s.FairServices ops →
    s.cfg.hasSite i = true → ∃ m, n ≤ m ∧ (s.trace ops m).svcEnabled i = false

/-! ## RD and WR: host access -/

/-- RD of a present register completes (R150, R151): the value by register number, and nothing but the response
changes. -/
def Obligations.RdAnswersRegister : Prop :=
  ∀ s : State, s.cfg.wellFormed = true →
    let answers := fun (n x : Nat) => exec (.rd n) s = .next { s with resp := some (.ok (BitVec.ofNat 16 x)) } ∧ x < 65536
    let bit := fun (present b : Bool) => if present && b then 1 else 0
    answers 0x00 s.cfg.period ∧ answers 0x01 s.cnt.toNat ∧
    answers 0x02 (bit (s.cfg.hasChan .ch0) (s.out .ch0) + 2 * bit (s.cfg.hasChan .ch1) (s.out .ch1) +
      4 * bit (s.cfg.hasChan .ch2) (s.out .ch2)) ∧
    answers 0x03 s.err.toNat ∧
    answers 0x04 (bit (s.cfg.hasSite .s0) (s.pend .s0) + 2 * bit (s.cfg.hasSite .s1) (s.pend .s1)) ∧
    answers 0x05 (bit (s.cfg.hasSite .s0) (s.pinl .s0) + 2 * bit (s.cfg.hasSite .s1) (s.pinl .s1)) ∧
    (∀ i, s.cfg.hasSite i = true →
      answers (0x08 + i.num) ((if s.ie i then 1 else 0) + 2 * (if s.esel i = .falling then 1 else 0)) ∧
      answers (0x0C + i.num) (s.dbc i).toNat) ∧
    (∀ c, s.cfg.hasChan c = true →
      answers (0x10 + c.num) (s.duty c).toNat ∧ answers (0x14 + c.num) (s.level c).toNat) ∧
    (s.cfg.fadeEn = true →
      answers 0x18 s.phase.num ∧ answers 0x19 s.fcnt.toNat ∧ answers 0x1A s.fivl.toNat)

/-- R64: RD has no side effect on any state element, and two RD of one register with no operation between them return
the same value. -/
def Obligations.RdHasNoSideEffect : Prop :=
  ∀ (s t u : State) (n : Nat) (x : Word), exec (.rd n) s = .next t → t.resp = some (.ok x) →
    exec (.rd n) t = .next u → t = { s with resp := some (.ok x) } ∧ u.resp = some (.ok x)

/-- R57: RD and WR of a number that is not in the map, or whose "present when" condition is false, raise
BAD_REGISTER. -/
def Obligations.UnmappedRegisterFaults : Prop :=
  ∀ (s : State) (n x : Nat), s.cfg.wellFormed = true →
    ¬(n ≤ 0x05) → (∀ k, k < s.cfg.nsites → n ≠ 0x08 + k ∧ n ≠ 0x0C + k) →
    (∀ k, k < s.cfg.nch → n ≠ 0x10 + k ∧ n ≠ 0x14 + k) →
    (s.cfg.fadeEn = true → n ≠ 0x18 ∧ n ≠ 0x19 ∧ n ≠ 0x1A) →
      exec (.rd n) s = .next { s with err := s.err ||| 0x0010#16, resp := some (.fault .badRegister) } ∧
      exec (.wr n x) s = .next { s with err := s.err ||| 0x0010#16, resp := some (.fault .badRegister) }

/-- R154: a WR of a present read-only register raises READ_ONLY, whatever the value. -/
def Obligations.ReadOnlyRegisterFaults : Prop :=
  ∀ (s : State) (x : Nat), s.cfg.wellFormed = true →
    let refused := fun n : Nat =>
      exec (.wr n x) s = .next { s with err := s.err ||| 0x0020#16, resp := some (.fault .readOnly) }
    refused 0x00 ∧ refused 0x01 ∧ refused 0x02 ∧ refused 0x03 ∧ refused 0x04 ∧ refused 0x05 ∧
    (∀ i, s.cfg.hasSite i = true → refused (0x0C + i.num)) ∧
    (s.cfg.fadeEn = true → refused 0x18 ∧ refused 0x19 ∧ refused 0x1A)

/-- R155: a WR of SITECFG with bits 15:2 clear sets IE and ESEL and nothing else; with IE cleared, an SVC of the site
is refused and a pending event stays pending. With one of the bits 15:2 set the WR raises BAD_VALUE (R152, R50). -/
def Obligations.WrSiteConfig : Prop :=
  ∀ (s : State) (i : Site) (x : Nat), s.cfg.hasSite i = true →
    (x < 4 → ∃ t, exec (.wr (0x08 + i.num) x) s = .next t ∧
      t.ie i = decide (x % 2 = 1) ∧ t.esel i = (if x / 2 = 1 then .falling else .rising) ∧
      t.pend i = s.pend i ∧ t.pinl i = s.pinl i ∧ t.dbc i = s.dbc i ∧ (∀ j, j ≠ i → s.SameSite t j) ∧
      (∀ c, s.SameChan t c) ∧ s.SameFade t ∧ s.SameEnv t ∧ t.cnt = s.cnt ∧ t.err = s.err ∧
      t.resp = some (.ok 0) ∧
      (x % 2 = 0 → ∃ u, exec (.svc i.num) t = .next u ∧ u.resp = some (.fault .svcNotEnabled) ∧
        u.pend i = s.pend i)) ∧
    (4 ≤ x → exec (.wr (0x08 + i.num) x) s =
      .next { s with err := s.err ||| 0x0100#16, resp := some (.fault .badValue) })

/-- R156: a WR of D[c] is accepted only for a DUTY channel and a value in [0, PERIOD], and then sets D[c] and nothing
else; above PERIOD it raises OUT_OF_RANGE_DUTY; for a LEVEL or FADE channel it raises WRITE_CONFLICT, whatever the
value. -/
def Obligations.WrDuty : Prop :=
  ∀ (s : State) (c : Chan) (x : Nat), s.cfg.wellFormed = true → s.cfg.hasChan c = true →
    (s.cfg.isDutyChan c = true → x ≤ s.cfg.period → ∃ t, exec (.wr (0x10 + c.num) x) s = .next t ∧
      (t.duty c).toNat = x ∧ t.out c = s.out c ∧ t.level c = s.level c ∧ (∀ d, d ≠ c → s.SameChan t d) ∧
      (∀ i, s.SameSite t i) ∧ s.SameFade t ∧ s.SameEnv t ∧ t.cnt = s.cnt ∧ t.err = s.err ∧
      t.resp = some (.ok 0)) ∧
    (s.cfg.isDutyChan c = true → s.cfg.period < x → exec (.wr (0x10 + c.num) x) s =
      .next { s with err := s.err ||| 0x0004#16, resp := some (.fault .outOfRangeDuty) }) ∧
    (s.cfg.isDutyChan c = false → exec (.wr (0x10 + c.num) x) s =
      .next { s with err := s.err ||| 0x0080#16, resp := some (.fault .writeConflict) })

/-- R157: a WR of L[c] is accepted only for a LEVEL channel and a value in [0, 10], and then sets L[c] and D[c] to the
table's entry in the same operation, and nothing else; above 10 it raises OUT_OF_RANGE_LEVEL; for a channel that is not
LEVEL it raises WRITE_CONFLICT. -/
def Obligations.WrLevel : Prop :=
  ∀ (s : State) (c : Chan) (x : Nat), s.cfg.wellFormed = true → s.cfg.hasChan c = true →
    (s.cfg.isLevelChan c = true → x ≤ 10 → ∃ t, exec (.wr (0x14 + c.num) x) s = .next t ∧
      (t.level c).toNat = x ∧ s.cfg.levelTable[x]? = some (t.duty c).toNat ∧ t.out c = s.out c ∧
      (∀ d, d ≠ c → s.SameChan t d) ∧ (∀ i, s.SameSite t i) ∧ s.SameFade t ∧ s.SameEnv t ∧ t.cnt = s.cnt ∧
      t.err = s.err ∧ t.resp = some (.ok 0)) ∧
    (s.cfg.isLevelChan c = true → 10 < x → exec (.wr (0x14 + c.num) x) s =
      .next { s with err := s.err ||| 0x0008#16, resp := some (.fault .outOfRangeLevel) }) ∧
    (s.cfg.isLevelChan c = false → exec (.wr (0x14 + c.num) x) s =
      .next { s with err := s.err ||| 0x0080#16, resp := some (.fault .writeConflict) })

/-- Repeating an accepted WR with the same value leaves the same state as doing it once (R65). -/
def Obligations.AcceptedWriteIsIdempotent : Prop :=
  ∀ (s t : State) (n x : Nat), exec (.wr n x) s = .next t → t.resp = some (.ok 0) →
    exec (.wr n x) t = .next t

/-- The writers of a duty register and a level index (R31, R32, R69, R147): a DUTY register changes only in an SVC of a
site that targets it or a WR of its number; a LEVEL channel's registers only in such an SVC or a WR of its level number;
a FADE register only in an FTICK. -/
def Obligations.DutyRegisterWriters : Prop :=
  ∀ (s t : State) (w : OpWord) (c : Chan) (cc : ChanCfg), s.Inv → s.cfg.chan? c = some cc → runWord w s = .next t →
    (t.duty c ≠ s.duty c ∨ t.level c ≠ s.level c) →
    (∃ i sc, s.cfg.site? i = some sc ∧ sc.target = some c ∧ decode w = .ok (.svc i.num) ∧ cc.kind.isFade = false) ∨
    (cc.kind.isDuty = true ∧ ∃ x, decode w = .ok (.wr (0x10 + c.num) x)) ∨
    (cc.kind.isLevel = true ∧ ∃ x, decode w = .ok (.wr (0x14 + c.num) x)) ∨
    (cc.kind.isFade = true ∧ decode w = .ok .ftick)

/-- The writers of the other elements (R28, R30, R35 to R42, R130, R160): CNT and OUT change only in a TICK, and OUT
becomes 1 only at an overflow (R119); the fade sequencer changes only in an FTICK; PEND is set only by a PIN and cleared
only by an SVC of its site; PINL changes only in a PIN of its site; DBC only in a TICK or a PIN of its site; IE and ESEL
only in a WR of the site's SITECFG. -/
def Obligations.ElementWriters : Prop :=
  ∀ (s t : State) (w : OpWord), runWord w s = .next t →
    (t.cnt ≠ s.cnt → decode w = .ok .tick) ∧
    (∀ c, t.out c ≠ s.out c →
      decode w = .ok .tick ∧ (t.out c = true → (s.cnt.toNat + 1) % s.cfg.period = 0)) ∧
    (t.fade ≠ s.fade → decode w = .ok .ftick) ∧
    (∀ i, t.pend i ≠ s.pend i →
      (t.pend i = true ∧ ∃ v, decode w = .ok (.pin i.num v)) ∨ (t.pend i = false ∧ decode w = .ok (.svc i.num))) ∧
    (∀ i, t.pinl i ≠ s.pinl i → ∃ v, decode w = .ok (.pin i.num v)) ∧
    (∀ i, t.dbc i ≠ s.dbc i → decode w = .ok .tick ∨ ∃ v, decode w = .ok (.pin i.num v)) ∧
    (∀ i, (t.ie i ≠ s.ie i ∨ t.esel i ≠ s.esel i) → ∃ x, decode w = .ok (.wr (0x08 + i.num) x))
end

