-- ==== Sys2Proof/Laws/Index.lean ====
section
/-! SUPPORT. Channel and site numbers, and the records that hold one value for each. -/

namespace Sys2Proof

@[simp] theorem PerChan.get_ofFn {α : Type} (f : Chan → α) (c : Chan) : (PerChan.ofFn f).get c = f c := by
  cases c <;> rfl

@[simp] theorem PerChan.get_modify {α : Type} (p : PerChan α) (c c' : Chan) (f : α → α) :
    (p.modify c f).get c' = if c' = c then f (p.get c') else p.get c' := by
  cases c <;> cases c' <;> rfl

theorem PerChan.ext_get {α : Type} {p q : PerChan α} (h : ∀ c, p.get c = q.get c) : p = q := by
  obtain ⟨_, _, _⟩ := p
  obtain ⟨_, _, _⟩ := q
  have h0 := h .ch0
  have h1 := h .ch1
  have h2 := h .ch2
  simp only [PerChan.get] at h0 h1 h2
  rw [h0, h1, h2]

@[simp] theorem PerSite.get_ofFn {α : Type} (f : Site → α) (i : Site) : (PerSite.ofFn f).get i = f i := by
  cases i <;> rfl

@[simp] theorem PerSite.get_modify {α : Type} (p : PerSite α) (i i' : Site) (f : α → α) :
    (p.modify i f).get i' = if i' = i then f (p.get i') else p.get i' := by
  cases i <;> cases i' <;> rfl

theorem PerSite.ext_get {α : Type} {p q : PerSite α} (h : ∀ i, p.get i = q.get i) : p = q := by
  obtain ⟨_, _⟩ := p
  obtain ⟨_, _⟩ := q
  have h0 := h .s0
  have h1 := h .s1
  simp only [PerSite.get] at h0 h1
  rw [h0, h1]

theorem Chan.num_inj {c d : Chan} (h : c.num = d.num) : c = d := by
  cases c <;> cases d <;> simp_all [Chan.num]

theorem Site.num_inj {i j : Site} (h : i.num = j.num) : i = j := by
  cases i <;> cases j <;> simp_all [Site.num]

theorem Chan.num_lt (c : Chan) : c.num < 3 := by cases c <;> decide

theorem Site.num_lt (i : Site) : i.num < 2 := by cases i <;> decide

@[simp] theorem Site.ofNum?_num (i : Site) : Site.ofNum? i.num = some i := by cases i <;> rfl

theorem Site.ofNum?_eq_some {n : Nat} {i : Site} (h : Site.ofNum? n = some i) : n = i.num := by
  match n with
  | 0 => cases h; rfl
  | 1 => cases h; rfl
  | n + 2 => cases h

/-- A channel exists exactly when its number is below NCH. -/
theorem Config.hasChan_iff (cfg : Config) (c : Chan) : cfg.hasChan c = true ↔ c.num < cfg.nch := by
  simp [Config.hasChan, Config.chan?, Config.nch]

/-- A site exists exactly when its number is below NSITES. -/
theorem Config.hasSite_iff (cfg : Config) (i : Site) : cfg.hasSite i = true ↔ i.num < cfg.nsites := by
  simp [Config.hasSite, Config.site?, Config.nsites]

end Sys2Proof
end

