-- ==== Sys2Proof/Laws/Config.lean ====
section
/-! SUPPORT. What a well-formed configuration gives, one lemma for each parameter a rule reads. -/

namespace Sys2Proof.Config

theorem mem_of_chan? {cfg : Config} {c : Chan} {cc : ChanCfg} (h : cfg.chan? c = some cc) : cc ∈ cfg.channels :=
  List.mem_of_getElem? h

theorem mem_of_site? {cfg : Config} {i : Site} {sc : SiteCfg} (h : cfg.site? i = some sc) : sc ∈ cfg.sites :=
  List.mem_of_getElem? h

theorem hasChan_of_chan? {cfg : Config} {c : Chan} {cc : ChanCfg} (h : cfg.chan? c = some cc) :
    cfg.hasChan c = true := by simp [hasChan, h]

theorem hasSite_of_site? {cfg : Config} {i : Site} {sc : SiteCfg} (h : cfg.site? i = some sc) :
    cfg.hasSite i = true := by simp [hasSite, h]

theorem site?_of_hasSite {cfg : Config} {i : Site} (h : cfg.hasSite i = true) : ∃ sc, cfg.site? i = some sc :=
  Option.isSome_iff_exists.mp h

theorem chan?_of_hasChan {cfg : Config} {c : Chan} (h : cfg.hasChan c = true) : ∃ cc, cfg.chan? c = some cc :=
  Option.isSome_iff_exists.mp h

theorem wellFormed_parts {cfg : Config} (h : cfg.wellFormed = true) :
    cfg.sizesOk = true ∧ cfg.fadeChannelsOk = true ∧ cfg.fadeParamsOk = true ∧ cfg.startValuesOk = true ∧
      ∀ sc ∈ cfg.sites, cfg.siteOk sc = true := by
  simp only [wellFormed, Bool.and_eq_true, List.all_eq_true] at h
  exact ⟨h.1.1.1.1, h.1.1.1.2, h.1.1.2, h.1.2, h.2⟩

theorem wellFormed_sizes {cfg : Config} (h : cfg.wellFormed = true) :
    1 ≤ cfg.period ∧ cfg.period ≤ 65535 ∧ 1 ≤ cfg.nch ∧ cfg.nch ≤ 3 ∧ cfg.nsites ≤ 2 ∧ cfg.dbWindow ≤ 65535 := by
  simpa [sizesOk] using (wellFormed_parts h).1

theorem wellFormed_fade {cfg : Config} {p : FadeCfg} (h : cfg.wellFormed = true) (hp : cfg.fade = some p) :
    1 ≤ p.step ∧ p.step ≤ cfg.period ∧ cfg.period % p.step = 0 ∧ 1 ≤ p.ivlInit ∧ p.ivlInit ≤ p.ivlMax ∧
      p.ivlMax ≤ 65535 ∧ 1 ≤ p.accel ∧ p.accel ≤ 65535 := by
  simpa [fadeParamsOk, hp] using (wellFormed_parts h).2.2.1

/-- With a fade sequencer every channel number exists and is FADE. -/
theorem wellFormed_fade_chan {cfg : Config} {p : FadeCfg} (h : cfg.wellFormed = true) (hp : cfg.fade = some p)
    (c : Chan) : ∃ m, cfg.chan? c = some ⟨.fade, m⟩ := by
  have hf := (wellFormed_parts h).2.1
  simp only [fadeChannelsOk, hp, Bool.and_eq_true, decide_eq_true_eq, List.all_eq_true] at hf
  have hc : cfg.hasChan c = true := by rw [hasChan_iff, hf.1]; exact c.num_lt
  obtain ⟨⟨k, m⟩, hcc⟩ := chan?_of_hasChan hc
  have := hf.2 _ (mem_of_chan? hcc)
  cases k <;> simp [ChanKind.isFade] at this
  exact ⟨m, hcc⟩

/-- Without a fade sequencer no channel is FADE. -/
theorem wellFormed_no_fade {cfg : Config} (h : cfg.wellFormed = true) (hp : cfg.fade = none) {c : Chan} {cc : ChanCfg}
    (hc : cfg.chan? c = some cc) : cc.kind.isFade = false := by
  have hf := (wellFormed_parts h).2.1
  simp only [fadeChannelsOk, hp, List.all_eq_true] at hf
  simpa using hf _ (mem_of_chan? hc)

theorem wellFormed_table {cfg : Config} (h : cfg.wellFormed = true) :
    cfg.levelTable.length = 11 ∧ ∀ d ∈ cfg.levelTable, d ≤ cfg.period := by
  have hs := (wellFormed_parts h).2.2.2.1
  simp only [startValuesOk, Bool.and_eq_true, decide_eq_true_eq, List.all_eq_true] at hs
  exact ⟨hs.1.2, hs.2⟩

/-- LEVEL_TABLE has an entry in [0, PERIOD] for every level index. -/
theorem levelTable_get {cfg : Config} (h : cfg.wellFormed = true) {l : Nat} (hl : l ≤ 10) :
    cfg.levelTable[l]? = some (cfg.levelDuty l) ∧ cfg.levelDuty l ≤ cfg.period := by
  obtain ⟨hlen, hall⟩ := wellFormed_table h
  have hlt : l < cfg.levelTable.length := by omega
  have hget : cfg.levelTable[l]? = some cfg.levelTable[l] := List.getElem?_eq_getElem hlt
  have hd : cfg.levelDuty l = cfg.levelTable[l] := by simp [levelDuty, List.getD, hget]
  rw [hd]
  exact ⟨hget, hall _ (List.getElem_mem hlt)⟩

theorem wellFormed_duty_init {cfg : Config} (h : cfg.wellFormed = true) {c : Chan} {d : Nat} {m : ChanMode}
    (hc : cfg.chan? c = some ⟨.duty d, m⟩) : d ≤ cfg.period := by
  have hs := (wellFormed_parts h).2.2.2.1
  simp only [startValuesOk, Bool.and_eq_true, List.all_eq_true] at hs
  simpa using hs.1.1 _ (mem_of_chan? hc)

theorem wellFormed_level_init {cfg : Config} (h : cfg.wellFormed = true) {c : Chan} {l : Nat} {m : ChanMode}
    (hc : cfg.chan? c = some ⟨.level l, m⟩) : l ≤ 10 := by
  have hs := (wellFormed_parts h).2.2.2.1
  simp only [startValuesOk, Bool.and_eq_true, List.all_eq_true] at hs
  simpa using hs.1.1 _ (mem_of_chan? hc)

/-- A site that targets a DUTY channel has bounds in [0, PERIOD]. -/
theorem wellFormed_duty_site {cfg : Config} (h : cfg.wellFormed = true) {i : Site} {sc : SiteCfg} {c : Chan}
    (hi : cfg.site? i = some sc) (ht : sc.target = some c) (hc : cfg.isDutyChan c = true) :
    0 ≤ sc.min ∧ sc.min ≤ sc.max ∧ sc.max ≤ cfg.period := by
  have hs := (wellFormed_parts h).2.2.2.2 _ (mem_of_site? hi)
  unfold isDutyChan at hc
  cases hcc : cfg.chan? c with
  | none => simp [hcc] at hc
  | some cc =>
    simp only [hcc] at hc
    cases hk : cc.kind <;> simp [hk, ChanKind.isDuty] at hc
    simp only [siteOk, ht, hcc, hk, Bool.and_eq_true, decide_eq_true_eq] at hs
    exact hs.2

/-- A site that targets a LEVEL channel has bounds in [0, 10]. -/
theorem wellFormed_level_site {cfg : Config} (h : cfg.wellFormed = true) {i : Site} {sc : SiteCfg} {c : Chan}
    (hi : cfg.site? i = some sc) (ht : sc.target = some c) (hc : cfg.isLevelChan c = true) :
    0 ≤ sc.min ∧ sc.min ≤ sc.max ∧ sc.max ≤ 10 := by
  have hs := (wellFormed_parts h).2.2.2.2 _ (mem_of_site? hi)
  unfold isLevelChan at hc
  cases hcc : cfg.chan? c with
  | none => simp [hcc] at hc
  | some cc =>
    simp only [hcc] at hc
    cases hk : cc.kind <;> simp [hk, ChanKind.isLevel] at hc
    simp only [siteOk, ht, hcc, hk, Bool.and_eq_true, decide_eq_true_eq] at hs
    exact hs.2

theorem isDutyChan_iff {cfg : Config} {c : Chan} :
    cfg.isDutyChan c = true ↔ ∃ d m, cfg.chan? c = some ⟨.duty d, m⟩ := by
  unfold isDutyChan
  cases hcc : cfg.chan? c with
  | none => simp
  | some cc => obtain ⟨k, m⟩ := cc; cases k <;> simp [ChanKind.isDuty]

theorem isLevelChan_iff {cfg : Config} {c : Chan} :
    cfg.isLevelChan c = true ↔ ∃ l m, cfg.chan? c = some ⟨.level l, m⟩ := by
  unfold isLevelChan
  cases hcc : cfg.chan? c with
  | none => simp
  | some cc => obtain ⟨k, m⟩ := cc; cases k <;> simp [ChanKind.isLevel]

end Sys2Proof.Config
end

