-- ==== Sys2Proof/Laws/Decode.lean ====
section
/-! SUPPORT. The fields of an operation word as numbers. -/

namespace Sys2Proof

theorem opField_toNat (w : OpWord) : (opField w).toNat = w.toNat / 2 ^ 28 := by
  have := w.isLt
  simp only [opField, BitVec.extractLsb'_toNat, Nat.shiftRight_eq_div_pow]
  omega

theorem idxField_toNat (w : OpWord) : (idxField w).toNat = w.toNat / 2 ^ 24 % 16 := by
  simp only [idxField, BitVec.extractLsb'_toNat, Nat.shiftRight_eq_div_pow]

theorem regField_toNat (w : OpWord) : (regField w).toNat = w.toNat / 2 ^ 16 % 256 := by
  simp only [regField, BitVec.extractLsb'_toNat, Nat.shiftRight_eq_div_pow]

theorem immField_toNat (w : OpWord) : (immField w).toNat = w.toNat % 65536 := by
  simp [immField, BitVec.extractLsb'_toNat]

theorem immField_level (w : OpWord) : (immField w).getLsbD 0 = decide (w.toNat % 2 = 1) := by
  simp [immField, BitVec.getLsbD, Nat.testBit_zero]

theorem immField_high (w : OpWord) : ((immField w).extractLsb' 1 15).toNat = w.toNat % 65536 / 2 := by
  rw [BitVec.extractLsb'_toNat, immField_toNat, Nat.shiftRight_eq_div_pow]
  omega

/-- A word is its four fields. -/
theorem toNat_of_fields (w : OpWord) :
    w.toNat = (opField w).toNat * 2 ^ 28 + (idxField w).toNat * 2 ^ 24 + (regField w).toNat * 2 ^ 16 +
      (immField w).toNat := by
  have := w.isLt
  rw [opField_toNat, idxField_toNat, regField_toNat, immField_toNat]
  omega

theorem whenClear_eq_ok {clear : Bool} {i j : Instr} : whenClear clear i = .ok j ↔ clear = true ∧ i = j := by
  cases clear <;> simp [whenClear]

theorem whenClear_eq_error {clear : Bool} {i : Instr} {e : DecodeError} :
    whenClear clear i = .error e ↔ clear = false ∧ e = .reservedBits := by
  cases clear <;> simp [whenClear, eq_comm]

end Sys2Proof
end

