-- ==== Sys2Proof/Laws/Operands.lean ====
section
/-! SUPPORT. What an operand names: a site index and a register number, against the configuration. -/

namespace Sys2Proof.Machine

theorem siteAt_num (cfg : Config) (i : Site) (sc : SiteCfg) (h : cfg.site? i = some sc) :
    siteAt cfg i.num = some (i, sc) := by
  simp [siteAt, h]

theorem siteAt_eq_some {cfg : Config} {n : Nat} {i : Site} {sc : SiteCfg} (h : siteAt cfg n = some (i, sc)) :
    n = i.num ∧ cfg.site? i = some sc := by
  unfold siteAt at h
  split at h
  · cases h
  · rename_i j hj
    split at h
    · cases h
    · rename_i sc' hsc
      cases h
      exact ⟨Site.ofNum?_eq_some hj, hsc⟩

theorem siteAt_eq_none {cfg : Config} {n : Nat} (h : cfg.nsites ≤ n) : siteAt cfg n = none := by
  unfold siteAt
  split
  · rfl
  · rename_i j hj
    have hn := Site.ofNum?_eq_some hj
    have hs : cfg.site? j = none := by
      simp only [Config.site?, List.getElem?_eq_none_iff]
      rw [← hn]
      exact h
    simp [hs]

theorem Reg.mem_all (r : Reg) : r ∈ Reg.all := by
  cases r <;> simp only [Reg.all] <;> first | decide | (rename_i x; cases x <;> decide)

theorem Reg.num_inj {r q : Reg} (h : r.num = q.num) : r = q := by
  have key : Reg.all.all (fun a => Reg.all.all fun b => a.num != b.num || a == b) = true := by decide
  have := List.all_eq_true.mp (List.all_eq_true.mp key r r.mem_all) q q.mem_all
  simpa [h] using this

theorem regAt_num {cfg : Config} {r : Reg} (h : r.present cfg = true) : regAt cfg r.num = some r := by
  unfold regAt
  rcases hf : Reg.all.find? (fun q => q.num == r.num && q.present cfg) with _ | q
  · have := List.find?_eq_none.mp hf r r.mem_all
    simp [h] at this
  · have := List.find?_some hf
    simp only [Bool.and_eq_true, beq_iff_eq] at this
    rw [hf, Reg.num_inj this.1]

theorem regAt_eq_some {cfg : Config} {n : Nat} {r : Reg} (h : regAt cfg n = some r) :
    n = r.num ∧ r.present cfg = true := by
  have := List.find?_some h
  simp only [Bool.and_eq_true, beq_iff_eq] at this
  exact ⟨this.1.symm, this.2⟩

theorem regAt_eq_none {cfg : Config} {n : Nat} (h : ∀ r : Reg, r.present cfg = true → n ≠ r.num) :
    regAt cfg n = none := by
  rcases hr : regAt cfg n with _ | r
  · rfl
  · obtain ⟨hn, hp⟩ := regAt_eq_some hr
    exact absurd hn (h r hp)

end Sys2Proof.Machine
end

