-- ==== Sys2Proof/Laws/State.lean ====
section
/-! SUPPORT. One simp lemma for each element and each writer of Machine/Ops.lean: what reads back after the write. No
later proof unfolds a record update. -/

namespace Sys2Proof.Machine.State


/-! `setCnt` -/

@[simp] theorem setCnt_cnt (s : State) (v : Word) : (s.setCnt v).cnt = v := rfl
@[simp] theorem setCnt_cfg (s : State) (v : Word) : (s.setCnt v).cfg = s.cfg := rfl
@[simp] theorem setCnt_err (s : State) (v : Word) : (s.setCnt v).err = s.err := rfl
@[simp] theorem setCnt_stream (s : State) (v : Word) : (s.setCnt v).stream = s.stream := rfl
@[simp] theorem setCnt_resp (s : State) (v : Word) : (s.setCnt v).resp = s.resp := rfl
@[simp] theorem setCnt_out (s : State) (v : Word) (c' : Chan) : (s.setCnt v).out c' = s.out c' := rfl
@[simp] theorem setCnt_duty (s : State) (v : Word) (c' : Chan) : (s.setCnt v).duty c' = s.duty c' := rfl
@[simp] theorem setCnt_level (s : State) (v : Word) (c' : Chan) : (s.setCnt v).level c' = s.level c' := rfl
@[simp] theorem setCnt_pend (s : State) (v : Word) (i' : Site) : (s.setCnt v).pend i' = s.pend i' := rfl
@[simp] theorem setCnt_pinl (s : State) (v : Word) (i' : Site) : (s.setCnt v).pinl i' = s.pinl i' := rfl
@[simp] theorem setCnt_esel (s : State) (v : Word) (i' : Site) : (s.setCnt v).esel i' = s.esel i' := rfl
@[simp] theorem setCnt_ie (s : State) (v : Word) (i' : Site) : (s.setCnt v).ie i' = s.ie i' := rfl
@[simp] theorem setCnt_dbc (s : State) (v : Word) (i' : Site) : (s.setCnt v).dbc i' = s.dbc i' := rfl
@[simp] theorem setCnt_fcnt (s : State) (v : Word) : (s.setCnt v).fcnt = s.fcnt := rfl
@[simp] theorem setCnt_phase (s : State) (v : Word) : (s.setCnt v).phase = s.phase := rfl
@[simp] theorem setCnt_fivl (s : State) (v : Word) : (s.setCnt v).fivl = s.fivl := rfl

/-! `setDuty` -/

@[simp] theorem setDuty_duty (s : State) (c : Chan) (v : Word) (c' : Chan) : (s.setDuty c v).duty c' = if c' = c then v else s.duty c' := by by_cases h : c' = c <;> simp [setDuty, duty, h]
@[simp] theorem setDuty_cfg (s : State) (c : Chan) (v : Word) : (s.setDuty c v).cfg = s.cfg := rfl
@[simp] theorem setDuty_cnt (s : State) (c : Chan) (v : Word) : (s.setDuty c v).cnt = s.cnt := rfl
@[simp] theorem setDuty_err (s : State) (c : Chan) (v : Word) : (s.setDuty c v).err = s.err := rfl
@[simp] theorem setDuty_stream (s : State) (c : Chan) (v : Word) : (s.setDuty c v).stream = s.stream := rfl
@[simp] theorem setDuty_resp (s : State) (c : Chan) (v : Word) : (s.setDuty c v).resp = s.resp := rfl
@[simp] theorem setDuty_out (s : State) (c : Chan) (v : Word) (c' : Chan) : (s.setDuty c v).out c' = s.out c' := by cases c <;> cases c' <;> rfl
@[simp] theorem setDuty_level (s : State) (c : Chan) (v : Word) (c' : Chan) : (s.setDuty c v).level c' = s.level c' := by cases c <;> cases c' <;> rfl
@[simp] theorem setDuty_pend (s : State) (c : Chan) (v : Word) (i' : Site) : (s.setDuty c v).pend i' = s.pend i' := rfl
@[simp] theorem setDuty_pinl (s : State) (c : Chan) (v : Word) (i' : Site) : (s.setDuty c v).pinl i' = s.pinl i' := rfl
@[simp] theorem setDuty_esel (s : State) (c : Chan) (v : Word) (i' : Site) : (s.setDuty c v).esel i' = s.esel i' := rfl
@[simp] theorem setDuty_ie (s : State) (c : Chan) (v : Word) (i' : Site) : (s.setDuty c v).ie i' = s.ie i' := rfl
@[simp] theorem setDuty_dbc (s : State) (c : Chan) (v : Word) (i' : Site) : (s.setDuty c v).dbc i' = s.dbc i' := rfl
@[simp] theorem setDuty_fcnt (s : State) (c : Chan) (v : Word) : (s.setDuty c v).fcnt = s.fcnt := rfl
@[simp] theorem setDuty_phase (s : State) (c : Chan) (v : Word) : (s.setDuty c v).phase = s.phase := rfl
@[simp] theorem setDuty_fivl (s : State) (c : Chan) (v : Word) : (s.setDuty c v).fivl = s.fivl := rfl

/-! `setLevel` -/

@[simp] theorem setLevel_level (s : State) (c : Chan) (v : Word) (c' : Chan) : (s.setLevel c v).level c' = if c' = c then v else s.level c' := by by_cases h : c' = c <;> simp [setLevel, level, h]
@[simp] theorem setLevel_cfg (s : State) (c : Chan) (v : Word) : (s.setLevel c v).cfg = s.cfg := rfl
@[simp] theorem setLevel_cnt (s : State) (c : Chan) (v : Word) : (s.setLevel c v).cnt = s.cnt := rfl
@[simp] theorem setLevel_err (s : State) (c : Chan) (v : Word) : (s.setLevel c v).err = s.err := rfl
@[simp] theorem setLevel_stream (s : State) (c : Chan) (v : Word) : (s.setLevel c v).stream = s.stream := rfl
@[simp] theorem setLevel_resp (s : State) (c : Chan) (v : Word) : (s.setLevel c v).resp = s.resp := rfl
@[simp] theorem setLevel_out (s : State) (c : Chan) (v : Word) (c' : Chan) : (s.setLevel c v).out c' = s.out c' := by cases c <;> cases c' <;> rfl
@[simp] theorem setLevel_duty (s : State) (c : Chan) (v : Word) (c' : Chan) : (s.setLevel c v).duty c' = s.duty c' := by cases c <;> cases c' <;> rfl
@[simp] theorem setLevel_pend (s : State) (c : Chan) (v : Word) (i' : Site) : (s.setLevel c v).pend i' = s.pend i' := rfl
@[simp] theorem setLevel_pinl (s : State) (c : Chan) (v : Word) (i' : Site) : (s.setLevel c v).pinl i' = s.pinl i' := rfl
@[simp] theorem setLevel_esel (s : State) (c : Chan) (v : Word) (i' : Site) : (s.setLevel c v).esel i' = s.esel i' := rfl
@[simp] theorem setLevel_ie (s : State) (c : Chan) (v : Word) (i' : Site) : (s.setLevel c v).ie i' = s.ie i' := rfl
@[simp] theorem setLevel_dbc (s : State) (c : Chan) (v : Word) (i' : Site) : (s.setLevel c v).dbc i' = s.dbc i' := rfl
@[simp] theorem setLevel_fcnt (s : State) (c : Chan) (v : Word) : (s.setLevel c v).fcnt = s.fcnt := rfl
@[simp] theorem setLevel_phase (s : State) (c : Chan) (v : Word) : (s.setLevel c v).phase = s.phase := rfl
@[simp] theorem setLevel_fivl (s : State) (c : Chan) (v : Word) : (s.setLevel c v).fivl = s.fivl := rfl

/-! `setPend` -/

@[simp] theorem setPend_pend (s : State) (i : Site) (v : Bool) (i' : Site) : (s.setPend i v).pend i' = if i' = i then v else s.pend i' := by by_cases h : i' = i <;> simp [setPend, pend, h]
@[simp] theorem setPend_cfg (s : State) (i : Site) (v : Bool) : (s.setPend i v).cfg = s.cfg := rfl
@[simp] theorem setPend_cnt (s : State) (i : Site) (v : Bool) : (s.setPend i v).cnt = s.cnt := rfl
@[simp] theorem setPend_err (s : State) (i : Site) (v : Bool) : (s.setPend i v).err = s.err := rfl
@[simp] theorem setPend_stream (s : State) (i : Site) (v : Bool) : (s.setPend i v).stream = s.stream := rfl
@[simp] theorem setPend_resp (s : State) (i : Site) (v : Bool) : (s.setPend i v).resp = s.resp := rfl
@[simp] theorem setPend_out (s : State) (i : Site) (v : Bool) (c' : Chan) : (s.setPend i v).out c' = s.out c' := rfl
@[simp] theorem setPend_duty (s : State) (i : Site) (v : Bool) (c' : Chan) : (s.setPend i v).duty c' = s.duty c' := rfl
@[simp] theorem setPend_level (s : State) (i : Site) (v : Bool) (c' : Chan) : (s.setPend i v).level c' = s.level c' := rfl
@[simp] theorem setPend_pinl (s : State) (i : Site) (v : Bool) (i' : Site) : (s.setPend i v).pinl i' = s.pinl i' := by cases i <;> cases i' <;> rfl
@[simp] theorem setPend_esel (s : State) (i : Site) (v : Bool) (i' : Site) : (s.setPend i v).esel i' = s.esel i' := by cases i <;> cases i' <;> rfl
@[simp] theorem setPend_ie (s : State) (i : Site) (v : Bool) (i' : Site) : (s.setPend i v).ie i' = s.ie i' := by cases i <;> cases i' <;> rfl
@[simp] theorem setPend_dbc (s : State) (i : Site) (v : Bool) (i' : Site) : (s.setPend i v).dbc i' = s.dbc i' := by cases i <;> cases i' <;> rfl
@[simp] theorem setPend_fcnt (s : State) (i : Site) (v : Bool) : (s.setPend i v).fcnt = s.fcnt := rfl
@[simp] theorem setPend_phase (s : State) (i : Site) (v : Bool) : (s.setPend i v).phase = s.phase := rfl
@[simp] theorem setPend_fivl (s : State) (i : Site) (v : Bool) : (s.setPend i v).fivl = s.fivl := rfl

/-! `setPinl` -/

@[simp] theorem setPinl_pinl (s : State) (i : Site) (v : Bool) (i' : Site) : (s.setPinl i v).pinl i' = if i' = i then v else s.pinl i' := by by_cases h : i' = i <;> simp [setPinl, pinl, h]
@[simp] theorem setPinl_cfg (s : State) (i : Site) (v : Bool) : (s.setPinl i v).cfg = s.cfg := rfl
@[simp] theorem setPinl_cnt (s : State) (i : Site) (v : Bool) : (s.setPinl i v).cnt = s.cnt := rfl
@[simp] theorem setPinl_err (s : State) (i : Site) (v : Bool) : (s.setPinl i v).err = s.err := rfl
@[simp] theorem setPinl_stream (s : State) (i : Site) (v : Bool) : (s.setPinl i v).stream = s.stream := rfl
@[simp] theorem setPinl_resp (s : State) (i : Site) (v : Bool) : (s.setPinl i v).resp = s.resp := rfl
@[simp] theorem setPinl_out (s : State) (i : Site) (v : Bool) (c' : Chan) : (s.setPinl i v).out c' = s.out c' := rfl
@[simp] theorem setPinl_duty (s : State) (i : Site) (v : Bool) (c' : Chan) : (s.setPinl i v).duty c' = s.duty c' := rfl
@[simp] theorem setPinl_level (s : State) (i : Site) (v : Bool) (c' : Chan) : (s.setPinl i v).level c' = s.level c' := rfl
@[simp] theorem setPinl_pend (s : State) (i : Site) (v : Bool) (i' : Site) : (s.setPinl i v).pend i' = s.pend i' := by cases i <;> cases i' <;> rfl
@[simp] theorem setPinl_esel (s : State) (i : Site) (v : Bool) (i' : Site) : (s.setPinl i v).esel i' = s.esel i' := by cases i <;> cases i' <;> rfl
@[simp] theorem setPinl_ie (s : State) (i : Site) (v : Bool) (i' : Site) : (s.setPinl i v).ie i' = s.ie i' := by cases i <;> cases i' <;> rfl
@[simp] theorem setPinl_dbc (s : State) (i : Site) (v : Bool) (i' : Site) : (s.setPinl i v).dbc i' = s.dbc i' := by cases i <;> cases i' <;> rfl
@[simp] theorem setPinl_fcnt (s : State) (i : Site) (v : Bool) : (s.setPinl i v).fcnt = s.fcnt := rfl
@[simp] theorem setPinl_phase (s : State) (i : Site) (v : Bool) : (s.setPinl i v).phase = s.phase := rfl
@[simp] theorem setPinl_fivl (s : State) (i : Site) (v : Bool) : (s.setPinl i v).fivl = s.fivl := rfl

/-! `setEsel` -/

@[simp] theorem setEsel_esel (s : State) (i : Site) (v : EdgeSel) (i' : Site) : (s.setEsel i v).esel i' = if i' = i then v else s.esel i' := by by_cases h : i' = i <;> simp [setEsel, esel, h]
@[simp] theorem setEsel_cfg (s : State) (i : Site) (v : EdgeSel) : (s.setEsel i v).cfg = s.cfg := rfl
@[simp] theorem setEsel_cnt (s : State) (i : Site) (v : EdgeSel) : (s.setEsel i v).cnt = s.cnt := rfl
@[simp] theorem setEsel_err (s : State) (i : Site) (v : EdgeSel) : (s.setEsel i v).err = s.err := rfl
@[simp] theorem setEsel_stream (s : State) (i : Site) (v : EdgeSel) : (s.setEsel i v).stream = s.stream := rfl
@[simp] theorem setEsel_resp (s : State) (i : Site) (v : EdgeSel) : (s.setEsel i v).resp = s.resp := rfl
@[simp] theorem setEsel_out (s : State) (i : Site) (v : EdgeSel) (c' : Chan) : (s.setEsel i v).out c' = s.out c' := rfl
@[simp] theorem setEsel_duty (s : State) (i : Site) (v : EdgeSel) (c' : Chan) : (s.setEsel i v).duty c' = s.duty c' := rfl
@[simp] theorem setEsel_level (s : State) (i : Site) (v : EdgeSel) (c' : Chan) : (s.setEsel i v).level c' = s.level c' := rfl
@[simp] theorem setEsel_pend (s : State) (i : Site) (v : EdgeSel) (i' : Site) : (s.setEsel i v).pend i' = s.pend i' := by cases i <;> cases i' <;> rfl
@[simp] theorem setEsel_pinl (s : State) (i : Site) (v : EdgeSel) (i' : Site) : (s.setEsel i v).pinl i' = s.pinl i' := by cases i <;> cases i' <;> rfl
@[simp] theorem setEsel_ie (s : State) (i : Site) (v : EdgeSel) (i' : Site) : (s.setEsel i v).ie i' = s.ie i' := by cases i <;> cases i' <;> rfl
@[simp] theorem setEsel_dbc (s : State) (i : Site) (v : EdgeSel) (i' : Site) : (s.setEsel i v).dbc i' = s.dbc i' := by cases i <;> cases i' <;> rfl
@[simp] theorem setEsel_fcnt (s : State) (i : Site) (v : EdgeSel) : (s.setEsel i v).fcnt = s.fcnt := rfl
@[simp] theorem setEsel_phase (s : State) (i : Site) (v : EdgeSel) : (s.setEsel i v).phase = s.phase := rfl
@[simp] theorem setEsel_fivl (s : State) (i : Site) (v : EdgeSel) : (s.setEsel i v).fivl = s.fivl := rfl

/-! `setIe` -/

@[simp] theorem setIe_ie (s : State) (i : Site) (v : Bool) (i' : Site) : (s.setIe i v).ie i' = if i' = i then v else s.ie i' := by by_cases h : i' = i <;> simp [setIe, ie, h]
@[simp] theorem setIe_cfg (s : State) (i : Site) (v : Bool) : (s.setIe i v).cfg = s.cfg := rfl
@[simp] theorem setIe_cnt (s : State) (i : Site) (v : Bool) : (s.setIe i v).cnt = s.cnt := rfl
@[simp] theorem setIe_err (s : State) (i : Site) (v : Bool) : (s.setIe i v).err = s.err := rfl
@[simp] theorem setIe_stream (s : State) (i : Site) (v : Bool) : (s.setIe i v).stream = s.stream := rfl
@[simp] theorem setIe_resp (s : State) (i : Site) (v : Bool) : (s.setIe i v).resp = s.resp := rfl
@[simp] theorem setIe_out (s : State) (i : Site) (v : Bool) (c' : Chan) : (s.setIe i v).out c' = s.out c' := rfl
@[simp] theorem setIe_duty (s : State) (i : Site) (v : Bool) (c' : Chan) : (s.setIe i v).duty c' = s.duty c' := rfl
@[simp] theorem setIe_level (s : State) (i : Site) (v : Bool) (c' : Chan) : (s.setIe i v).level c' = s.level c' := rfl
@[simp] theorem setIe_pend (s : State) (i : Site) (v : Bool) (i' : Site) : (s.setIe i v).pend i' = s.pend i' := by cases i <;> cases i' <;> rfl
@[simp] theorem setIe_pinl (s : State) (i : Site) (v : Bool) (i' : Site) : (s.setIe i v).pinl i' = s.pinl i' := by cases i <;> cases i' <;> rfl
@[simp] theorem setIe_esel (s : State) (i : Site) (v : Bool) (i' : Site) : (s.setIe i v).esel i' = s.esel i' := by cases i <;> cases i' <;> rfl
@[simp] theorem setIe_dbc (s : State) (i : Site) (v : Bool) (i' : Site) : (s.setIe i v).dbc i' = s.dbc i' := by cases i <;> cases i' <;> rfl
@[simp] theorem setIe_fcnt (s : State) (i : Site) (v : Bool) : (s.setIe i v).fcnt = s.fcnt := rfl
@[simp] theorem setIe_phase (s : State) (i : Site) (v : Bool) : (s.setIe i v).phase = s.phase := rfl
@[simp] theorem setIe_fivl (s : State) (i : Site) (v : Bool) : (s.setIe i v).fivl = s.fivl := rfl

/-! `setDbc` -/

@[simp] theorem setDbc_dbc (s : State) (i : Site) (v : Word) (i' : Site) : (s.setDbc i v).dbc i' = if i' = i then v else s.dbc i' := by by_cases h : i' = i <;> simp [setDbc, dbc, h]
@[simp] theorem setDbc_cfg (s : State) (i : Site) (v : Word) : (s.setDbc i v).cfg = s.cfg := rfl
@[simp] theorem setDbc_cnt (s : State) (i : Site) (v : Word) : (s.setDbc i v).cnt = s.cnt := rfl
@[simp] theorem setDbc_err (s : State) (i : Site) (v : Word) : (s.setDbc i v).err = s.err := rfl
@[simp] theorem setDbc_stream (s : State) (i : Site) (v : Word) : (s.setDbc i v).stream = s.stream := rfl
@[simp] theorem setDbc_resp (s : State) (i : Site) (v : Word) : (s.setDbc i v).resp = s.resp := rfl
@[simp] theorem setDbc_out (s : State) (i : Site) (v : Word) (c' : Chan) : (s.setDbc i v).out c' = s.out c' := rfl
@[simp] theorem setDbc_duty (s : State) (i : Site) (v : Word) (c' : Chan) : (s.setDbc i v).duty c' = s.duty c' := rfl
@[simp] theorem setDbc_level (s : State) (i : Site) (v : Word) (c' : Chan) : (s.setDbc i v).level c' = s.level c' := rfl
@[simp] theorem setDbc_pend (s : State) (i : Site) (v : Word) (i' : Site) : (s.setDbc i v).pend i' = s.pend i' := by cases i <;> cases i' <;> rfl
@[simp] theorem setDbc_pinl (s : State) (i : Site) (v : Word) (i' : Site) : (s.setDbc i v).pinl i' = s.pinl i' := by cases i <;> cases i' <;> rfl
@[simp] theorem setDbc_esel (s : State) (i : Site) (v : Word) (i' : Site) : (s.setDbc i v).esel i' = s.esel i' := by cases i <;> cases i' <;> rfl
@[simp] theorem setDbc_ie (s : State) (i : Site) (v : Word) (i' : Site) : (s.setDbc i v).ie i' = s.ie i' := by cases i <;> cases i' <;> rfl
@[simp] theorem setDbc_fcnt (s : State) (i : Site) (v : Word) : (s.setDbc i v).fcnt = s.fcnt := rfl
@[simp] theorem setDbc_phase (s : State) (i : Site) (v : Word) : (s.setDbc i v).phase = s.phase := rfl
@[simp] theorem setDbc_fivl (s : State) (i : Site) (v : Word) : (s.setDbc i v).fivl = s.fivl := rfl

/-! `setFcnt` -/

@[simp] theorem setFcnt_fcnt (s : State) (v : Word) : (s.setFcnt v).fcnt = v := rfl
@[simp] theorem setFcnt_cfg (s : State) (v : Word) : (s.setFcnt v).cfg = s.cfg := rfl
@[simp] theorem setFcnt_cnt (s : State) (v : Word) : (s.setFcnt v).cnt = s.cnt := rfl
@[simp] theorem setFcnt_err (s : State) (v : Word) : (s.setFcnt v).err = s.err := rfl
@[simp] theorem setFcnt_stream (s : State) (v : Word) : (s.setFcnt v).stream = s.stream := rfl
@[simp] theorem setFcnt_resp (s : State) (v : Word) : (s.setFcnt v).resp = s.resp := rfl
@[simp] theorem setFcnt_out (s : State) (v : Word) (c' : Chan) : (s.setFcnt v).out c' = s.out c' := rfl
@[simp] theorem setFcnt_duty (s : State) (v : Word) (c' : Chan) : (s.setFcnt v).duty c' = s.duty c' := rfl
@[simp] theorem setFcnt_level (s : State) (v : Word) (c' : Chan) : (s.setFcnt v).level c' = s.level c' := rfl
@[simp] theorem setFcnt_pend (s : State) (v : Word) (i' : Site) : (s.setFcnt v).pend i' = s.pend i' := rfl
@[simp] theorem setFcnt_pinl (s : State) (v : Word) (i' : Site) : (s.setFcnt v).pinl i' = s.pinl i' := rfl
@[simp] theorem setFcnt_esel (s : State) (v : Word) (i' : Site) : (s.setFcnt v).esel i' = s.esel i' := rfl
@[simp] theorem setFcnt_ie (s : State) (v : Word) (i' : Site) : (s.setFcnt v).ie i' = s.ie i' := rfl
@[simp] theorem setFcnt_dbc (s : State) (v : Word) (i' : Site) : (s.setFcnt v).dbc i' = s.dbc i' := rfl
@[simp] theorem setFcnt_phase (s : State) (v : Word) : (s.setFcnt v).phase = s.phase := rfl
@[simp] theorem setFcnt_fivl (s : State) (v : Word) : (s.setFcnt v).fivl = s.fivl := rfl

/-! `setPhase` -/

@[simp] theorem setPhase_phase (s : State) (v : Phase) : (s.setPhase v).phase = v := rfl
@[simp] theorem setPhase_cfg (s : State) (v : Phase) : (s.setPhase v).cfg = s.cfg := rfl
@[simp] theorem setPhase_cnt (s : State) (v : Phase) : (s.setPhase v).cnt = s.cnt := rfl
@[simp] theorem setPhase_err (s : State) (v : Phase) : (s.setPhase v).err = s.err := rfl
@[simp] theorem setPhase_stream (s : State) (v : Phase) : (s.setPhase v).stream = s.stream := rfl
@[simp] theorem setPhase_resp (s : State) (v : Phase) : (s.setPhase v).resp = s.resp := rfl
@[simp] theorem setPhase_out (s : State) (v : Phase) (c' : Chan) : (s.setPhase v).out c' = s.out c' := rfl
@[simp] theorem setPhase_duty (s : State) (v : Phase) (c' : Chan) : (s.setPhase v).duty c' = s.duty c' := rfl
@[simp] theorem setPhase_level (s : State) (v : Phase) (c' : Chan) : (s.setPhase v).level c' = s.level c' := rfl
@[simp] theorem setPhase_pend (s : State) (v : Phase) (i' : Site) : (s.setPhase v).pend i' = s.pend i' := rfl
@[simp] theorem setPhase_pinl (s : State) (v : Phase) (i' : Site) : (s.setPhase v).pinl i' = s.pinl i' := rfl
@[simp] theorem setPhase_esel (s : State) (v : Phase) (i' : Site) : (s.setPhase v).esel i' = s.esel i' := rfl
@[simp] theorem setPhase_ie (s : State) (v : Phase) (i' : Site) : (s.setPhase v).ie i' = s.ie i' := rfl
@[simp] theorem setPhase_dbc (s : State) (v : Phase) (i' : Site) : (s.setPhase v).dbc i' = s.dbc i' := rfl
@[simp] theorem setPhase_fcnt (s : State) (v : Phase) : (s.setPhase v).fcnt = s.fcnt := rfl
@[simp] theorem setPhase_fivl (s : State) (v : Phase) : (s.setPhase v).fivl = s.fivl := rfl

/-! `setFivl` -/

@[simp] theorem setFivl_fivl (s : State) (v : Word) : (s.setFivl v).fivl = v := rfl
@[simp] theorem setFivl_cfg (s : State) (v : Word) : (s.setFivl v).cfg = s.cfg := rfl
@[simp] theorem setFivl_cnt (s : State) (v : Word) : (s.setFivl v).cnt = s.cnt := rfl
@[simp] theorem setFivl_err (s : State) (v : Word) : (s.setFivl v).err = s.err := rfl
@[simp] theorem setFivl_stream (s : State) (v : Word) : (s.setFivl v).stream = s.stream := rfl
@[simp] theorem setFivl_resp (s : State) (v : Word) : (s.setFivl v).resp = s.resp := rfl
@[simp] theorem setFivl_out (s : State) (v : Word) (c' : Chan) : (s.setFivl v).out c' = s.out c' := rfl
@[simp] theorem setFivl_duty (s : State) (v : Word) (c' : Chan) : (s.setFivl v).duty c' = s.duty c' := rfl
@[simp] theorem setFivl_level (s : State) (v : Word) (c' : Chan) : (s.setFivl v).level c' = s.level c' := rfl
@[simp] theorem setFivl_pend (s : State) (v : Word) (i' : Site) : (s.setFivl v).pend i' = s.pend i' := rfl
@[simp] theorem setFivl_pinl (s : State) (v : Word) (i' : Site) : (s.setFivl v).pinl i' = s.pinl i' := rfl
@[simp] theorem setFivl_esel (s : State) (v : Word) (i' : Site) : (s.setFivl v).esel i' = s.esel i' := rfl
@[simp] theorem setFivl_ie (s : State) (v : Word) (i' : Site) : (s.setFivl v).ie i' = s.ie i' := rfl
@[simp] theorem setFivl_dbc (s : State) (v : Word) (i' : Site) : (s.setFivl v).dbc i' = s.dbc i' := rfl
@[simp] theorem setFivl_fcnt (s : State) (v : Word) : (s.setFivl v).fcnt = s.fcnt := rfl
@[simp] theorem setFivl_phase (s : State) (v : Word) : (s.setFivl v).phase = s.phase := rfl

/-! `setOuts`, `setDbcs` -/

@[simp] theorem setOuts_out (s : State) (f : Chan → Bool) (c : Chan) : (s.setOuts f).out c = f c := by simp [setOuts, out]
@[simp] theorem setOuts_cfg (s : State) (f : Chan → Bool) : (s.setOuts f).cfg = s.cfg := rfl
@[simp] theorem setOuts_cnt (s : State) (f : Chan → Bool) : (s.setOuts f).cnt = s.cnt := rfl
@[simp] theorem setOuts_err (s : State) (f : Chan → Bool) : (s.setOuts f).err = s.err := rfl
@[simp] theorem setOuts_stream (s : State) (f : Chan → Bool) : (s.setOuts f).stream = s.stream := rfl
@[simp] theorem setOuts_resp (s : State) (f : Chan → Bool) : (s.setOuts f).resp = s.resp := rfl
@[simp] theorem setOuts_duty (s : State) (f : Chan → Bool) (c' : Chan) : (s.setOuts f).duty c' = s.duty c' := by cases c' <;> rfl
@[simp] theorem setOuts_level (s : State) (f : Chan → Bool) (c' : Chan) : (s.setOuts f).level c' = s.level c' := by cases c' <;> rfl
@[simp] theorem setOuts_pend (s : State) (f : Chan → Bool) (i' : Site) : (s.setOuts f).pend i' = s.pend i' := rfl
@[simp] theorem setOuts_pinl (s : State) (f : Chan → Bool) (i' : Site) : (s.setOuts f).pinl i' = s.pinl i' := rfl
@[simp] theorem setOuts_esel (s : State) (f : Chan → Bool) (i' : Site) : (s.setOuts f).esel i' = s.esel i' := rfl
@[simp] theorem setOuts_ie (s : State) (f : Chan → Bool) (i' : Site) : (s.setOuts f).ie i' = s.ie i' := rfl
@[simp] theorem setOuts_dbc (s : State) (f : Chan → Bool) (i' : Site) : (s.setOuts f).dbc i' = s.dbc i' := rfl
@[simp] theorem setOuts_fcnt (s : State) (f : Chan → Bool) : (s.setOuts f).fcnt = s.fcnt := rfl
@[simp] theorem setOuts_phase (s : State) (f : Chan → Bool) : (s.setOuts f).phase = s.phase := rfl
@[simp] theorem setOuts_fivl (s : State) (f : Chan → Bool) : (s.setOuts f).fivl = s.fivl := rfl
@[simp] theorem setDbcs_dbc (s : State) (f : Site → Word) (i : Site) : (s.setDbcs f).dbc i = f i := by simp [setDbcs, dbc]
@[simp] theorem setDbcs_cfg (s : State) (f : Site → Word) : (s.setDbcs f).cfg = s.cfg := rfl
@[simp] theorem setDbcs_cnt (s : State) (f : Site → Word) : (s.setDbcs f).cnt = s.cnt := rfl
@[simp] theorem setDbcs_err (s : State) (f : Site → Word) : (s.setDbcs f).err = s.err := rfl
@[simp] theorem setDbcs_stream (s : State) (f : Site → Word) : (s.setDbcs f).stream = s.stream := rfl
@[simp] theorem setDbcs_resp (s : State) (f : Site → Word) : (s.setDbcs f).resp = s.resp := rfl
@[simp] theorem setDbcs_out (s : State) (f : Site → Word) (c' : Chan) : (s.setDbcs f).out c' = s.out c' := rfl
@[simp] theorem setDbcs_duty (s : State) (f : Site → Word) (c' : Chan) : (s.setDbcs f).duty c' = s.duty c' := rfl
@[simp] theorem setDbcs_level (s : State) (f : Site → Word) (c' : Chan) : (s.setDbcs f).level c' = s.level c' := rfl
@[simp] theorem setDbcs_pend (s : State) (f : Site → Word) (i' : Site) : (s.setDbcs f).pend i' = s.pend i' := by cases i' <;> rfl
@[simp] theorem setDbcs_pinl (s : State) (f : Site → Word) (i' : Site) : (s.setDbcs f).pinl i' = s.pinl i' := by cases i' <;> rfl
@[simp] theorem setDbcs_esel (s : State) (f : Site → Word) (i' : Site) : (s.setDbcs f).esel i' = s.esel i' := by cases i' <;> rfl
@[simp] theorem setDbcs_ie (s : State) (f : Site → Word) (i' : Site) : (s.setDbcs f).ie i' = s.ie i' := by cases i' <;> rfl
@[simp] theorem setDbcs_fcnt (s : State) (f : Site → Word) : (s.setDbcs f).fcnt = s.fcnt := rfl
@[simp] theorem setDbcs_phase (s : State) (f : Site → Word) : (s.setDbcs f).phase = s.phase := rfl
@[simp] theorem setDbcs_fivl (s : State) (f : Site → Word) : (s.setDbcs f).fivl = s.fivl := rfl

/-! `complete`, `raise` -/

@[simp] theorem complete_resp (s : State) (v : Word) : (s.complete v).resp = some (.ok v) := rfl
@[simp] theorem complete_cfg (s : State) (v : Word) : (s.complete v).cfg = s.cfg := rfl
@[simp] theorem complete_cnt (s : State) (v : Word) : (s.complete v).cnt = s.cnt := rfl
@[simp] theorem complete_err (s : State) (v : Word) : (s.complete v).err = s.err := rfl
@[simp] theorem complete_stream (s : State) (v : Word) : (s.complete v).stream = s.stream := rfl
@[simp] theorem complete_out (s : State) (v : Word) (c' : Chan) : (s.complete v).out c' = s.out c' := rfl
@[simp] theorem complete_duty (s : State) (v : Word) (c' : Chan) : (s.complete v).duty c' = s.duty c' := rfl
@[simp] theorem complete_level (s : State) (v : Word) (c' : Chan) : (s.complete v).level c' = s.level c' := rfl
@[simp] theorem complete_pend (s : State) (v : Word) (i' : Site) : (s.complete v).pend i' = s.pend i' := rfl
@[simp] theorem complete_pinl (s : State) (v : Word) (i' : Site) : (s.complete v).pinl i' = s.pinl i' := rfl
@[simp] theorem complete_esel (s : State) (v : Word) (i' : Site) : (s.complete v).esel i' = s.esel i' := rfl
@[simp] theorem complete_ie (s : State) (v : Word) (i' : Site) : (s.complete v).ie i' = s.ie i' := rfl
@[simp] theorem complete_dbc (s : State) (v : Word) (i' : Site) : (s.complete v).dbc i' = s.dbc i' := rfl
@[simp] theorem complete_fcnt (s : State) (v : Word) : (s.complete v).fcnt = s.fcnt := rfl
@[simp] theorem complete_phase (s : State) (v : Word) : (s.complete v).phase = s.phase := rfl
@[simp] theorem complete_fivl (s : State) (v : Word) : (s.complete v).fivl = s.fivl := rfl
@[simp] theorem raise_resp (s : State) (c : FaultCode) : (s.raise c).resp = some (.fault c) := rfl
@[simp] theorem raise_err (s : State) (c : FaultCode) : (s.raise c).err = s.err ||| c.errBit := rfl
@[simp] theorem raise_cfg (s : State) (c : FaultCode) : (s.raise c).cfg = s.cfg := rfl
@[simp] theorem raise_cnt (s : State) (c : FaultCode) : (s.raise c).cnt = s.cnt := rfl
@[simp] theorem raise_stream (s : State) (c : FaultCode) : (s.raise c).stream = s.stream := rfl
@[simp] theorem raise_out (s : State) (c : FaultCode) (c' : Chan) : (s.raise c).out c' = s.out c' := rfl
@[simp] theorem raise_duty (s : State) (c : FaultCode) (c' : Chan) : (s.raise c).duty c' = s.duty c' := rfl
@[simp] theorem raise_level (s : State) (c : FaultCode) (c' : Chan) : (s.raise c).level c' = s.level c' := rfl
@[simp] theorem raise_pend (s : State) (c : FaultCode) (i' : Site) : (s.raise c).pend i' = s.pend i' := rfl
@[simp] theorem raise_pinl (s : State) (c : FaultCode) (i' : Site) : (s.raise c).pinl i' = s.pinl i' := rfl
@[simp] theorem raise_esel (s : State) (c : FaultCode) (i' : Site) : (s.raise c).esel i' = s.esel i' := rfl
@[simp] theorem raise_ie (s : State) (c : FaultCode) (i' : Site) : (s.raise c).ie i' = s.ie i' := rfl
@[simp] theorem raise_dbc (s : State) (c : FaultCode) (i' : Site) : (s.raise c).dbc i' = s.dbc i' := rfl
@[simp] theorem raise_fcnt (s : State) (c : FaultCode) : (s.raise c).fcnt = s.fcnt := rfl
@[simp] theorem raise_phase (s : State) (c : FaultCode) : (s.raise c).phase = s.phase := rfl
@[simp] theorem raise_fivl (s : State) (c : FaultCode) : (s.raise c).fivl = s.fivl := rfl

/-! Whole records. -/

@[simp] theorem complete_chans (s : State) (v : Word) : (s.complete v).chans = s.chans := rfl
@[simp] theorem complete_sites (s : State) (v : Word) : (s.complete v).sites = s.sites := rfl
@[simp] theorem complete_fade (s : State) (v : Word) : (s.complete v).fade = s.fade := rfl
@[simp] theorem raise_chans (s : State) (c : FaultCode) : (s.raise c).chans = s.chans := rfl
@[simp] theorem raise_sites (s : State) (c : FaultCode) : (s.raise c).sites = s.sites := rfl
@[simp] theorem raise_fade (s : State) (c : FaultCode) : (s.raise c).fade = s.fade := rfl
@[simp] theorem setCnt_fade (s : State) (v : Word) : (s.setCnt v).fade = s.fade := rfl
@[simp] theorem setDuty_fade (s : State) (c : Chan) (v : Word) : (s.setDuty c v).fade = s.fade := rfl
@[simp] theorem setLevel_fade (s : State) (c : Chan) (v : Word) : (s.setLevel c v).fade = s.fade := rfl
@[simp] theorem setPend_fade (s : State) (i : Site) (v : Bool) : (s.setPend i v).fade = s.fade := rfl
@[simp] theorem setPinl_fade (s : State) (i : Site) (v : Bool) : (s.setPinl i v).fade = s.fade := rfl
@[simp] theorem setEsel_fade (s : State) (i : Site) (v : EdgeSel) : (s.setEsel i v).fade = s.fade := rfl
@[simp] theorem setIe_fade (s : State) (i : Site) (v : Bool) : (s.setIe i v).fade = s.fade := rfl
@[simp] theorem setDbc_fade (s : State) (i : Site) (v : Word) : (s.setDbc i v).fade = s.fade := rfl
@[simp] theorem setOuts_fade (s : State) (f : Chan → Bool) : (s.setOuts f).fade = s.fade := rfl
@[simp] theorem setDbcs_fade (s : State) (f : Site → Word) : (s.setDbcs f).fade = s.fade := rfl

/-- Two states with the same fields and elements are one state. -/
theorem ext_elements {s t : State} (cfg : t.cfg = s.cfg) (cnt : t.cnt = s.cnt) (err : t.err = s.err)
    (chan : ∀ c, t.out c = s.out c ∧ t.duty c = s.duty c ∧ t.level c = s.level c)
    (site : ∀ i, t.pend i = s.pend i ∧ t.pinl i = s.pinl i ∧ t.esel i = s.esel i ∧ t.ie i = s.ie i ∧ t.dbc i = s.dbc i)
    (fade : t.fcnt = s.fcnt ∧ t.phase = s.phase ∧ t.fivl = s.fivl) (stream : t.stream = s.stream)
    (resp : t.resp = s.resp) : t = s := by
  obtain ⟨_, _, _, tc, ts, ⟨_, _, _⟩, _, _⟩ := t
  obtain ⟨_, _, _, sc, ss, ⟨_, _, _⟩, _, _⟩ := s
  have hchans : tc = sc := PerChan.ext_get fun c => by
    obtain ⟨h1, h2, h3⟩ := chan c
    have : tc.get c = ⟨(tc.get c).out, (tc.get c).duty, (tc.get c).level⟩ := rfl
    rw [this]
    simp only [out, duty, level] at h1 h2 h3
    rw [h1, h2, h3]
  have hsites : ts = ss := PerSite.ext_get fun i => by
    obtain ⟨h1, h2, h3, h4, h5⟩ := site i
    have : ts.get i = ⟨(ts.get i).pend, (ts.get i).pinl, (ts.get i).esel, (ts.get i).ie, (ts.get i).dbc⟩ := rfl
    rw [this]
    simp only [pend, pinl, esel, ie, dbc] at h1 h2 h3 h4 h5
    rw [h1, h2, h3, h4, h5]
  simp only [fcnt, phase, fivl] at fade
  obtain ⟨f1, f2, f3⟩ := fade
  simp_all

end Sys2Proof.Machine.State
end

