-- ==== Sys2Proof/Laws/Exec.lean ====
section
/-! SUPPORT. Inversion: everything a meaning, an operation word and a step can do, said once. -/

namespace Sys2Proof.Machine

/-- TICK always completes, with this state. -/
theorem execTick_eq (s : State) :
    execTick s = .next ((((s.setCnt (BitVec.ofNat 16 s.nextCount)).setDbcs s.dbcAfterTick).setOuts
      (s.outAfterTick s.nextCount)).complete 0) := rfl

theorem execFtick_cases {s t : State} (h : execFtick s = .next t) :
    (s.cfg.fade = none ∧ t = s.complete 0) ∨
    (∃ p, s.cfg.fade = some p ∧ s.fcnt.toNat + 1 = s.fivl.toNat ∧ t = (s.fadeTick p).complete 0) ∨
    (∃ p, s.cfg.fade = some p ∧ s.fcnt.toNat + 1 ≠ s.fivl.toNat ∧
      t = (s.setFcnt (BitVec.ofNat 16 (s.fcnt.toNat + 1))).complete 0) := by
  unfold execFtick at h
  split at h
  · rename_i hf
    cases h
    exact .inl ⟨hf, rfl⟩
  · rename_i p hf
    dsimp only at h
    split at h
    · rename_i hc
      cases h
      exact .inr (.inl ⟨p, hf, hc, rfl⟩)
    · rename_i hc
      cases h
      exact .inr (.inr ⟨p, hf, hc, rfl⟩)

theorem execPin_cases {s t : State} {n : Nat} {v : Bool} (h : execPin n v s = .next t) :
    (siteAt s.cfg n = none ∧ t = s.raise .badIndex) ∨
    (∃ i sc, n = i.num ∧ s.cfg.site? i = some sc ∧ s.acceptsEdge i v = true ∧
      t = ((s.setPinl i v).latchEdge i).complete 0) ∨
    (∃ i sc, n = i.num ∧ s.cfg.site? i = some sc ∧ s.acceptsEdge i v = false ∧ t = (s.setPinl i v).complete 0) := by
  unfold execPin at h
  split at h
  · rename_i hs
    cases h
    exact .inl ⟨hs, rfl⟩
  · rename_i i sc hs
    obtain ⟨hn, hsc⟩ := siteAt_eq_some hs
    cases ha : s.acceptsEdge i v <;> simp only [ha] at h <;> cases h
    · exact .inr (.inr ⟨i, sc, hn, hsc, ha, rfl⟩)
    · exact .inr (.inl ⟨i, sc, hn, hsc, ha, rfl⟩)

theorem execSvc_cases {s t : State} {n : Nat} (h : execSvc n s = .next t) :
    (siteAt s.cfg n = none ∧ t = s.raise .badIndex) ∨
    (∃ i sc, n = i.num ∧ s.cfg.site? i = some sc ∧ s.svcEnabled i = true ∧
      t = ((s.applyUpdate sc).setPend i false).complete 0) ∨
    (∃ i sc, n = i.num ∧ s.cfg.site? i = some sc ∧ s.svcEnabled i = false ∧ t = s.raise .svcNotEnabled) := by
  unfold execSvc at h
  split at h
  · rename_i hs
    cases h
    exact .inl ⟨hs, rfl⟩
  · rename_i i sc hs
    obtain ⟨hn, hsc⟩ := siteAt_eq_some hs
    cases ha : s.svcEnabled i <;> simp only [ha] at h <;> cases h
    · exact .inr (.inr ⟨i, sc, hn, hsc, ha, rfl⟩)
    · exact .inr (.inl ⟨i, sc, hn, hsc, ha, rfl⟩)

theorem execRd_cases {s t : State} {n : Nat} (h : execRd n s = .next t) :
    (regAt s.cfg n = none ∧ t = s.raise .badRegister) ∨
    (∃ r, n = r.num ∧ r.present s.cfg = true ∧ t = s.complete (s.regValue r)) := by
  unfold execRd at h
  split at h
  · rename_i hr
    cases h
    exact .inl ⟨hr, rfl⟩
  · rename_i r hr
    obtain ⟨hn, hp⟩ := regAt_eq_some hr
    cases h
    exact .inr ⟨r, hn, hp, rfl⟩

theorem execWr_cases {s t : State} {n x : Nat} (h : execWr n x s = .next t) :
    (regAt s.cfg n = none ∧ t = s.raise .badRegister) ∨
    (∃ r c, n = r.num ∧ r.present s.cfg = true ∧ writeFault s.cfg r x = some c ∧ t = s.raise c) ∨
    (∃ r, n = r.num ∧ r.present s.cfg = true ∧ writeFault s.cfg r x = none ∧ t = (s.writeReg r x).complete 0) := by
  unfold execWr at h
  split at h
  · rename_i hr
    cases h
    exact .inl ⟨hr, rfl⟩
  · rename_i r hr
    obtain ⟨hn, hp⟩ := regAt_eq_some hr
    split at h
    · rename_i c hc
      cases h
      exact .inr (.inl ⟨r, c, hn, hp, hc, rfl⟩)
    · rename_i hc
      cases h
      exact .inr (.inr ⟨r, hn, hp, hc, rfl⟩)

/-- A WR that no check refuses writes SITECFG, the D of a DUTY channel or the L of a LEVEL channel. -/
theorem writeFault_eq_none {cfg : Config} {r : Reg} {x : Nat} (h : writeFault cfg r x = none) :
    (∃ i, r = .siteCfg i ∧ x < 4) ∨ (∃ c, r = .duty c ∧ cfg.isDutyChan c = true ∧ x ≤ cfg.period) ∨
    (∃ c, r = .level c ∧ cfg.isLevelChan c = true ∧ x ≤ 10) := by
  unfold writeFault at h
  cases r <;> simp [Reg.readOnly] at h ⊢ <;>
    first | omega | (split at h <;> simp_all)

/-- A word that decodes is its operation. Rewrite with this, over a variable word; unfolding `runWord` over
`encode i` makes Lean evaluate the decoder on a symbolic number. -/
theorem runWord_of_ok {w : OpWord} {i : Instr} (h : decode w = .ok i) (s : State) : runWord w s = exec i s := by
  simp only [runWord, h]

theorem runWord_of_error {w : OpWord} {e : DecodeError} (h : decode w = .error e) (s : State) :
    runWord w s = .next (s.raise .illegalOp) := by
  simp only [runWord, h, execIllegal]

/-- What an operation word can do: it is ILLEGAL and takes the fault entry, or it is its operation. -/
theorem runWord_cases {s t : State} {w : OpWord} (h : runWord w s = .next t) :
    (∃ e, decode w = .error e ∧ t = s.raise .illegalOp) ∨ (∃ i, decode w = .ok i ∧ exec i s = .next t) := by
  unfold runWord at h
  split at h
  · rename_i i hi
    exact .inr ⟨i, hi, h⟩
  · rename_i e he
    cases h
    exact .inl ⟨e, he, rfl⟩

/-- What a step can do: wait, or run the next word of the stream. -/
theorem step_cases {s t : State} (h : step s = .next t) :
    s.cfg.wellFormed = true ∧
      ((s.stream = [] ∧ t = s) ∨
        ∃ w rest, s.stream = w :: rest ∧ runWord w { s with stream := rest } = .next t) := by
  unfold step at h
  split at h
  · rename_i hw
    refine ⟨hw, ?_⟩
    unfold State.takeOp at h
    split at h
    · rename_i hs
      cases h
      split at hs
      · rename_i hn
        exact .inl ⟨hn, rfl⟩
      · cases hs
    · rename_i w u hs
      split at hs
      · cases hs
      · rename_i w' rest hc
        cases hs
        exact .inr ⟨_, rest, hc, h⟩
  · cases h

end Sys2Proof.Machine
end

