-- ==== Sys2Proof/Laws/Edge.lean ====
section
/-! SUPPORT. The edge detector and the site's update (41_edge.md R96 to R105). -/

namespace Sys2Proof.Machine

/-- R96: a qualifying transition changes the level in the selected direction. -/
theorem qualifying_iff {sel : EdgeSel} {prev v : Bool} :
    qualifying sel prev v = true ↔ prev ≠ v ∧ ((sel = .rising ∧ v = true) ∨ (sel = .falling ∧ v = false)) := by
  cases sel <;> cases prev <;> cases v <;> simp [qualifying]

theorem State.acceptsEdge_iff {s : State} {i : Site} {v : Bool} :
    s.acceptsEdge i v = true ↔ qualifying (s.esel i) (s.pinl i) v = true ∧ s.dbc i = 0 := by
  simp [State.acceptsEdge]

/-- The update lands in the site's bounds, whatever it starts from (R109). -/
theorem upd_within {sc : SiteCfg} (h : sc.min ≤ sc.max) (x : Int) : sc.min ≤ upd sc x ∧ upd sc x ≤ sc.max := by
  unfold upd clampInt
  cases sc.dir <;> cases sc.pol <;> dsimp only <;> (try split) <;> omega

/-- What the update writes: the duty register of a DUTY target, both registers of a LEVEL target, or nothing. -/
theorem State.applyUpdate_cases (s : State) (sc : SiteCfg) :
    (∃ c, sc.target = some c ∧ s.cfg.isDutyChan c = true ∧
      s.applyUpdate sc = s.setDuty c (BitVec.ofNat 16 (upd sc (s.duty c).toNat).toNat)) ∨
    (∃ c, sc.target = some c ∧ s.cfg.isLevelChan c = true ∧
      s.applyUpdate sc = s.setLevelAlias c (upd sc (s.level c).toNat).toNat) ∨
    ((∀ c, sc.target = some c → s.cfg.isDutyChan c = false ∧ s.cfg.isLevelChan c = false) ∧
      s.applyUpdate sc = s) := by
  unfold State.applyUpdate
  cases ht : sc.target with
  | none => simp
  | some c =>
    cases hc : s.cfg.chan? c with
    | none => simp [Config.isDutyChan, Config.isLevelChan, hc]
    | some cc =>
      cases hk : cc.kind <;> simp [Config.isDutyChan, Config.isLevelChan, hc, hk, ChanKind.isDuty, ChanKind.isLevel]

theorem State.applyUpdate_duty {s : State} {sc : SiteCfg} {c : Chan} (ht : sc.target = some c)
    (hc : s.cfg.isDutyChan c = true) :
    s.applyUpdate sc = s.setDuty c (BitVec.ofNat 16 (upd sc (s.duty c).toNat).toNat) := by
  obtain ⟨d, m, h⟩ := Config.isDutyChan_iff.mp hc
  simp [State.applyUpdate, ht, h]

theorem State.applyUpdate_level {s : State} {sc : SiteCfg} {c : Chan} (ht : sc.target = some c)
    (hc : s.cfg.isLevelChan c = true) :
    s.applyUpdate sc = s.setLevelAlias c (upd sc (s.level c).toNat).toNat := by
  obtain ⟨d, m, h⟩ := Config.isLevelChan_iff.mp hc
  simp [State.applyUpdate, ht, h]

theorem State.applyUpdate_none {s : State} {sc : SiteCfg} (ht : sc.target = none) : s.applyUpdate sc = s := by
  simp [State.applyUpdate, ht]

/-! What the update leaves. -/

section
variable (s : State) (sc : SiteCfg)

@[simp] theorem State.applyUpdate_cfg : (s.applyUpdate sc).cfg = s.cfg := by
  rcases s.applyUpdate_cases sc with ⟨c, _, _, h⟩ | ⟨c, _, _, h⟩ | ⟨_, h⟩ <;> rw [h] <;> simp [State.setLevelAlias]

@[simp] theorem State.applyUpdate_cnt : (s.applyUpdate sc).cnt = s.cnt := by
  rcases s.applyUpdate_cases sc with ⟨c, _, _, h⟩ | ⟨c, _, _, h⟩ | ⟨_, h⟩ <;> rw [h] <;> simp [State.setLevelAlias]

@[simp] theorem State.applyUpdate_err : (s.applyUpdate sc).err = s.err := by
  rcases s.applyUpdate_cases sc with ⟨c, _, _, h⟩ | ⟨c, _, _, h⟩ | ⟨_, h⟩ <;> rw [h] <;> simp [State.setLevelAlias]

@[simp] theorem State.applyUpdate_stream : (s.applyUpdate sc).stream = s.stream := by
  rcases s.applyUpdate_cases sc with ⟨c, _, _, h⟩ | ⟨c, _, _, h⟩ | ⟨_, h⟩ <;> rw [h] <;> simp [State.setLevelAlias]

@[simp] theorem State.applyUpdate_sites : (s.applyUpdate sc).sites = s.sites := by
  rcases s.applyUpdate_cases sc with ⟨c, _, _, h⟩ | ⟨c, _, _, h⟩ | ⟨_, h⟩ <;> rw [h] <;> rfl

@[simp] theorem State.applyUpdate_fade : (s.applyUpdate sc).fade = s.fade := by
  rcases s.applyUpdate_cases sc with ⟨c, _, _, h⟩ | ⟨c, _, _, h⟩ | ⟨_, h⟩ <;> rw [h] <;> rfl

@[simp] theorem State.applyUpdate_out (c : Chan) : (s.applyUpdate sc).out c = s.out c := by
  rcases s.applyUpdate_cases sc with ⟨c, _, _, h⟩ | ⟨c, _, _, h⟩ | ⟨_, h⟩ <;> rw [h] <;> simp [State.setLevelAlias]

end

end Sys2Proof.Machine
end

