-- ==== Sys2Proof/Laws/Fade.lean ====
section
/-! SUPPORT. What a fade tick does to each element (43_fade.md R133 to R139). -/

namespace Sys2Proof.Machine

theorem Phase.falling_num (p : Phase) : p.falling.num = p.num := by cases p <;> rfl
theorem Phase.rising_num (p : Phase) : p.rising.num = (p.num + 1) % 3 := by cases p <;> rfl
theorem Phase.succ_num (p : Phase) : p.succ.num = (p.num + 1) % 3 := by cases p <;> rfl
theorem Phase.num_inj {p q : Phase} (h : p.num = q.num) : p = q := by cases p <;> cases q <;> simp_all [Phase.num]

@[simp] theorem Phase.rising_ne_falling (p : Phase) : p.rising ≠ p.falling := by cases p <;> decide
@[simp] theorem Phase.falling_ne_rising (p : Phase) : p.falling ≠ p.rising := by cases p <;> decide
@[simp] theorem Phase.other_ne_falling (p : Phase) : p.other ≠ p.falling := by cases p <;> decide
@[simp] theorem Phase.other_ne_rising (p : Phase) : p.other ≠ p.rising := by cases p <;> decide

/-- At a phase advance the channels change roles (R140). -/
theorem Phase.succ_falling (p : Phase) : p.succ.falling = p.rising := by cases p <;> rfl
theorem Phase.succ_rising (p : Phase) : p.succ.rising = p.other := by cases p <;> rfl
theorem Phase.succ_other (p : Phase) : p.succ.other = p.falling := by cases p <;> rfl

theorem Phase.chan_cases (p : Phase) (c : Chan) : c = p.falling ∨ c = p.rising ∨ c = p.other := by
  cases p <;> cases c <;> simp [Phase.falling, Phase.rising, Phase.other]

/-- The interval stays within its bounds (R42). -/
theorem nextInterval_bounds {p : FadeCfg} {v : Nat} (h1 : p.ivlInit ≤ p.ivlMax) (h2 : p.ivlInit ≤ v) :
    p.ivlInit ≤ nextInterval p v ∧ nextInterval p v ≤ p.ivlMax := by
  unfold nextInterval
  split
  · omega
  · cases p.roll <;> simp [h1]

/-- Under HOLD the interval does not shrink (R145). -/
theorem nextInterval_hold {p : FadeCfg} {v : Nat} (h : p.roll = .hold) (hv : v ≤ p.ivlMax) : v ≤ nextInterval p v := by
  unfold nextInterval
  rw [h]
  dsimp only
  split <;> omega

/-! The fields of the three parts of a fade tick, and of the whole. -/

section
variable (s : State) (p : FadeCfg) (f : Chan)

@[simp] theorem State.advancePhase_cfg : (s.advancePhase f).cfg = s.cfg := by unfold advancePhase; split <;> rfl
@[simp] theorem State.advancePhase_cnt : (s.advancePhase f).cnt = s.cnt := by unfold advancePhase; split <;> rfl
@[simp] theorem State.advancePhase_err : (s.advancePhase f).err = s.err := by unfold advancePhase; split <;> rfl
@[simp] theorem State.advancePhase_chans : (s.advancePhase f).chans = s.chans := by unfold advancePhase; split <;> rfl
@[simp] theorem State.advancePhase_sites : (s.advancePhase f).sites = s.sites := by unfold advancePhase; split <;> rfl
@[simp] theorem State.advancePhase_fcnt : (s.advancePhase f).fcnt = s.fcnt := by unfold advancePhase; split <;> rfl
@[simp] theorem State.advancePhase_fivl : (s.advancePhase f).fivl = s.fivl := by unfold advancePhase; split <;> rfl

@[simp] theorem State.advancePhase_stream : (s.advancePhase f).stream = s.stream := by
  unfold advancePhase; split <;> rfl

/-- PHASE advances exactly when the falling channel is at 0 (R138). -/
theorem State.advancePhase_phase :
    (s.advancePhase f).phase = if s.duty f = 0 then s.phase.succ else s.phase := by
  unfold advancePhase; split <;> rfl

@[simp] theorem State.fadeStep_out (c : Chan) : (s.fadeStep p).out c = s.out c := by simp [fadeStep]
@[simp] theorem State.fadeStep_level (c : Chan) : (s.fadeStep p).level c = s.level c := by simp [fadeStep]

/-- The fade step on the duty registers (R137). -/
theorem State.fadeStep_duty (c : Chan) : (s.fadeStep p).duty c =
    if c = s.phase.falling then BitVec.ofNat 16 ((s.duty c).toNat - p.step)
    else if c = s.phase.rising then BitVec.ofNat 16 ((s.duty c).toNat + p.step)
    else s.duty c := by
  rcases s.phase.chan_cases c with h | h | h <;> subst h <;> simp [fadeStep]

@[simp] theorem State.fadeTick_cfg : (s.fadeTick p).cfg = s.cfg :=
  advancePhase_cfg ((s.setFcnt 0).fadeStep p) s.phase.falling

@[simp] theorem State.fadeTick_cnt : (s.fadeTick p).cnt = s.cnt :=
  advancePhase_cnt ((s.setFcnt 0).fadeStep p) s.phase.falling

@[simp] theorem State.fadeTick_err : (s.fadeTick p).err = s.err :=
  advancePhase_err ((s.setFcnt 0).fadeStep p) s.phase.falling

@[simp] theorem State.fadeTick_stream : (s.fadeTick p).stream = s.stream :=
  advancePhase_stream ((s.setFcnt 0).fadeStep p) s.phase.falling

@[simp] theorem State.fadeTick_sites : (s.fadeTick p).sites = s.sites :=
  advancePhase_sites ((s.setFcnt 0).fadeStep p) s.phase.falling

@[simp] theorem State.fadeTick_fcnt : (s.fadeTick p).fcnt = 0 :=
  advancePhase_fcnt ((s.setFcnt 0).fadeStep p) s.phase.falling

/-- The channels of a fade tick are those of its fade step. -/
theorem State.fadeTick_chans : (s.fadeTick p).chans = ((s.setFcnt 0).fadeStep p).chans :=
  advancePhase_chans ((s.setFcnt 0).fadeStep p) s.phase.falling

@[simp] theorem State.fadeTick_out (c : Chan) : (s.fadeTick p).out c = s.out c := by
  have h := fadeStep_out (s.setFcnt 0) p c
  simp only [out, fadeTick_chans]
  exact h

@[simp] theorem State.fadeTick_level (c : Chan) : (s.fadeTick p).level c = s.level c := by
  have h := fadeStep_level (s.setFcnt 0) p c
  simp only [level, fadeTick_chans]
  exact h

theorem State.fadeTick_duty (c : Chan) : (s.fadeTick p).duty c =
    if c = s.phase.falling then BitVec.ofNat 16 ((s.duty c).toNat - p.step)
    else if c = s.phase.rising then BitVec.ofNat 16 ((s.duty c).toNat + p.step)
    else s.duty c := by
  have h := fadeStep_duty (s.setFcnt 0) p c
  simp only [duty, fadeTick_chans]
  exact h

@[simp] theorem State.fadeTick_fivl : (s.fadeTick p).fivl = BitVec.ofNat 16 (nextInterval p s.fivl.toNat) := by
  simp only [fadeTick, lengthenInterval, setFivl_fivl, advancePhase_fivl]
  rfl

theorem State.fadeTick_phase : (s.fadeTick p).phase =
    if (s.fadeTick p).duty s.phase.falling = 0 then s.phase.succ else s.phase := by
  have h := advancePhase_phase ((s.setFcnt 0).fadeStep p) s.phase.falling
  rw [fadeStep_duty] at h
  rw [fadeTick_duty]
  exact h

end

end Sys2Proof.Machine
end

