-- ==== Sys2Proof/Laws/HostAccess.lean ====
section
/-! SUPPORT. Host register access (44_host_access.md R150 to R157): the accepted writes, the refused ones, the packed
registers. -/

namespace Sys2Proof.Machine

theorem execRd_present {s : State} {r : Reg} (h : r.present s.cfg = true) :
    execRd r.num s = .next (s.complete (s.regValue r)) := by
  simp [execRd, regAt_num h]

theorem execWr_accepted {s : State} {r : Reg} {x : Nat} (h : r.present s.cfg = true)
    (hf : writeFault s.cfg r x = none) : execWr r.num x s = .next ((s.writeReg r x).complete 0) := by
  simp [execWr, regAt_num h, hf]

theorem execWr_refused {s : State} {r : Reg} {x : Nat} {c : FaultCode} (h : r.present s.cfg = true)
    (hf : writeFault s.cfg r x = some c) : execWr r.num x s = .next (s.raise c) := by
  simp [execWr, regAt_num h, hf]

/-- The checks of R152 leave out no read-only register. -/
theorem writeFault_readOnly {cfg : Config} {r : Reg} (x : Nat) (h : r.readOnly = true) :
    writeFault cfg r x = some .readOnly := by simp [writeFault, h]

theorem writeFault_siteCfg {cfg : Config} {i : Site} {x : Nat} (h : x < 4) : writeFault cfg (.siteCfg i) x = none := by
  have : x / 4 = 0 := by omega
  simp [writeFault, Reg.readOnly, this]

theorem writeFault_badValue {cfg : Config} {i : Site} {x : Nat} (h : 4 ≤ x) :
    writeFault cfg (.siteCfg i) x = some .badValue := by
  have : x / 4 ≠ 0 := by omega
  simp [writeFault, Reg.readOnly, this]

theorem writeFault_duty {cfg : Config} {c : Chan} {x : Nat} (hc : cfg.isDutyChan c = true) (h : x ≤ cfg.period) :
    writeFault cfg (.duty c) x = none := by
  have : ¬ x > cfg.period := by omega
  simp [writeFault, Reg.readOnly, hc]
  omega

theorem writeFault_level {cfg : Config} {c : Chan} {x : Nat} (hc : cfg.isLevelChan c = true) (h : x ≤ 10) :
    writeFault cfg (.level c) x = none := by
  simp [writeFault, Reg.readOnly, hc]
  omega

/-- Bits 0 and 1 of a value below 4. -/
theorem testBit_low {x : Nat} (h : x < 4) :
    x.testBit 0 = decide (x % 2 = 1) ∧ edgeOfBit (x.testBit 1) = if x / 2 = 1 then .falling else .rising := by
  rcases (by omega : x = 0 ∨ x = 1 ∨ x = 2 ∨ x = 3) with rfl | rfl | rfl | rfl <;> decide

/-- An accepted write changes neither what it was accepted by nor anything a RD of other elements shows. -/
theorem State.writeReg_cfg (s : State) (r : Reg) (x : Nat) : (s.writeReg r x).cfg = s.cfg := by
  cases r <;> simp [State.writeReg, State.setLevelAlias]

end Sys2Proof.Machine
end

