-- ==== Sys2Proof/Laws/PerInstr.lean ====
section
/-! SUPPORT. A statement about every operation as syntax: the OP field of its word is that of its row of the opcode
table (30_encoding.md R76 to R82). -/

namespace Sys2Proof.Laws

/-- The OP field of the word of a well-formed operation is its row's. -/
def OpField.Statement (i : Instr) : Prop := i.wellFormed = true → opField (encode i) = opField i.row.pattern

theorem OpField.tick : OpField.Statement .tick := fun _ => rfl

theorem OpField.ftick : OpField.Statement .ftick := fun _ => rfl

theorem OpField.pin (site : Nat) (level : Bool) : OpField.Statement (.pin site level) := by
  intro h
  simp only [Instr.wellFormed, decide_eq_true_eq] at h
  apply BitVec.eq_of_toNat_eq
  rw [opField_toNat, opField_toNat]
  have := level.toNat_le
  simp only [encode, Instr.row, BitVec.toNat_ofNat]
  omega

theorem OpField.svc (site : Nat) : OpField.Statement (.svc site) := by
  intro h
  simp only [Instr.wellFormed, decide_eq_true_eq] at h
  apply BitVec.eq_of_toNat_eq
  rw [opField_toNat, opField_toNat]
  simp only [encode, Instr.row, BitVec.toNat_ofNat]
  omega

theorem OpField.rd (reg : Nat) : OpField.Statement (.rd reg) := by
  intro h
  simp only [Instr.wellFormed, decide_eq_true_eq] at h
  apply BitVec.eq_of_toNat_eq
  rw [opField_toNat, opField_toNat]
  simp only [encode, Instr.row, BitVec.toNat_ofNat]
  omega

theorem OpField.wr (reg value : Nat) : OpField.Statement (.wr reg value) := by
  intro h
  simp only [Instr.wellFormed, Bool.and_eq_true, decide_eq_true_eq] at h
  apply BitVec.eq_of_toNat_eq
  rw [opField_toNat, opField_toNat]
  simp only [encode, Instr.row, BitVec.toNat_ofNat]
  omega

end Sys2Proof.Laws
end

