-- ==== Sys2Proof/Laws/Safety.lean ====
section
/-! SUPPORT. The invariants of 10_state.md R22 as a check that evaluates, and how they carry over from one state to
another. -/

namespace Sys2Proof.Machine

/-- `State.ChanInv` as a check. -/
def State.chanCheck (s : State) (c : Chan) : Bool :=
  match s.cfg.chan? c with
  | none => s.chans.get c == ChanState.absent
  | some cc =>
    decide ((s.duty c).toNat ≤ s.cfg.period) &&
    if cc.kind.isLevel then
      decide ((s.level c).toNat ≤ 10) && decide ((s.duty c).toNat = s.cfg.levelDuty (s.level c).toNat)
    else s.level c == 0

/-- `State.FadeInv` as a check. -/
def State.fadeCheck (s : State) : Bool :=
  match s.cfg.fade with
  | none => s.fade == FadeState.absent
  | some p =>
    s.duty s.phase.other == 0 &&
    decide ((s.duty s.phase.falling).toNat + (s.duty s.phase.rising).toNat = s.cfg.period) &&
    decide (p.step ≤ (s.duty s.phase.falling).toNat) && decide ((s.duty s.phase.falling).toNat % p.step = 0) &&
    decide (s.fcnt.toNat < s.fivl.toNat) && decide (p.ivlInit ≤ s.fivl.toNat) && decide (s.fivl.toNat ≤ p.ivlMax)

/-- The site part of `State.Inv` as a check. -/
def State.siteCheck (s : State) (i : Site) : Bool :=
  match s.cfg.site? i with
  | none => s.sites.get i == SiteState.absent
  | some _ => decide ((s.dbc i).toNat ≤ s.cfg.dbWindow)

/-- `State.Inv` as a check. -/
def State.invCheck (s : State) : Bool :=
  s.cfg.wellFormed && decide (s.cnt.toNat < s.cfg.period) && Chan.all.all s.chanCheck && s.fadeCheck &&
    Site.all.all s.siteCheck && s.err &&& 0xFC01#16 == 0

theorem State.inv_of_check {s : State} (h : s.invCheck = true) : s.Inv := by
  simp only [State.invCheck, Bool.and_eq_true, decide_eq_true_eq, List.all_eq_true, beq_iff_eq] at h
  obtain ⟨⟨⟨⟨⟨hw, hc⟩, hch⟩, hf⟩, hs⟩, he⟩ := h
  have chan : ∀ c, s.chanCheck c = true := fun c => hch c (by cases c <;> decide)
  have site : ∀ i, s.siteCheck i = true := fun i => hs i (by cases i <;> decide)
  refine ⟨hw, hc, ?_, ?_, ?_, he, ?_, ?_, ?_⟩
  · intro c cc hcc
    have := chan c
    simp only [State.chanCheck, hcc, Bool.and_eq_true, decide_eq_true_eq] at this
    refine ⟨this.1, fun hl => ?_, fun hl => ?_⟩
    · simpa [hl] using this.2
    · simpa [hl] using this.2
  · intro p hp
    simp only [State.fadeCheck, hp, Bool.and_eq_true, decide_eq_true_eq, beq_iff_eq] at hf
    obtain ⟨⟨⟨⟨⟨⟨h1, h2⟩, h3⟩, h4⟩, h5⟩, h6⟩, h7⟩ := hf
    exact ⟨h1, h2, h3, h4, h5, h6, h7⟩
  · intro i hi
    obtain ⟨sc, hsc⟩ := Config.site?_of_hasSite hi
    have := site i
    simpa [State.siteCheck, hsc] using this
  · intro c hcc
    have := chan c
    simpa [State.chanCheck, hcc] using this
  · intro i hii
    have := site i
    simpa [State.siteCheck, hii] using this
  · intro hp
    simpa [State.fadeCheck, hp] using hf

/-- The invariants speak of the configuration and the elements only: the stream and the response may change, and ERR as
long as its unused bits stay 0. -/
theorem State.Inv.of_eq {s t : State} (h : s.Inv) (cfg : t.cfg = s.cfg) (cnt : t.cnt = s.cnt) (chans : t.chans = s.chans)
    (sites : t.sites = s.sites) (fade : t.fade = s.fade) (err : t.err &&& 0xFC01#16 = 0) : t.Inv := by
  obtain ⟨c0, s0, s1, s2, s3, s4, s5, sr⟩ := s
  obtain ⟨c1, t0, t1, t2, t3, t4, t5, tr⟩ := t
  simp only at cfg cnt chans sites fade
  subst cfg cnt chans sites fade
  obtain ⟨hw, hc, hch, hf, hd, _, a1, a2, a3⟩ := h
  exact ⟨hw, hc, fun c cc hcc => ⟨(hch c cc hcc).1, (hch c cc hcc).2, (hch c cc hcc).3⟩,
    fun p hp => ⟨(hf p hp).1, (hf p hp).2, (hf p hp).3, (hf p hp).4, (hf p hp).5, (hf p hp).6, (hf p hp).7⟩,
    hd, err, a1, a2, a3⟩

/-- The fault entry keeps the invariants: no fault code is 0 or above 9. -/
theorem State.Inv.raise {s : State} (h : s.Inv) (c : FaultCode) : (s.raise c).Inv := by
  refine h.of_eq rfl rfl rfl rfl rfl ?_
  have hb : c.errBit &&& 0xFC01#16 = 0 := by cases c <;> decide
  rw [State.raise_err, BitVec.and_comm, BitVec.and_or_distrib_left, BitVec.and_comm, h.err_bits, BitVec.and_comm, hb]
  rfl

theorem State.Inv.complete {s : State} (h : s.Inv) (v : Word) : (s.complete v).Inv :=
  h.of_eq rfl rfl rfl rfl rfl h.err_bits

end Sys2Proof.Machine
end

