-- ==== Sys2Proof/Laws/Waveform.lean ====
section
/-! SUPPORT. What a TICK does to each element (42_waveform.md R118 to R122). -/

namespace Sys2Proof.Machine

theorem State.nextCount_lt {s : State} (h : s.cfg.wellFormed = true) : s.nextCount < s.cfg.period :=
  Nat.mod_lt _ (Config.wellFormed_sizes h).1

/-- Before the end of the period the count goes up by one. -/
theorem State.nextCount_of_lt {s : State} (h : s.cnt.toNat + 1 < s.cfg.period) : s.nextCount = s.cnt.toNat + 1 :=
  Nat.mod_eq_of_lt h

/-- The new count is stored whole: PERIOD fits a register. -/
theorem State.nextCount_stored {s : State} (h : s.cfg.wellFormed = true) :
    (BitVec.ofNat 16 s.nextCount).toNat = s.nextCount := by
  have h1 := State.nextCount_lt h
  have h2 := (Config.wellFormed_sizes h).2.1
  simp only [BitVec.toNat_ofNat]
  omega

theorem State.dbcAfterTick_toNat {s : State} {i : Site} (h : s.cfg.hasSite i = true) :
    (s.dbcAfterTick i).toNat = (s.dbc i).toNat - 1 := by
  have := (s.dbc i).isLt
  simp only [State.dbcAfterTick, h, if_true, BitVec.toNat_ofNat]
  omega

theorem State.dbcAfterTick_absent {s : State} {i : Site} (h : s.cfg.hasSite i = false) :
    s.dbcAfterTick i = s.dbc i := by simp [State.dbcAfterTick, h]

/-- The overflow event (R119). -/
theorem outAfter_zero (m : CmpMode) (d : Nat) (o : Bool) : outAfter m 0 d o = decide (d ≠ 0) := by simp [outAfter]

/-- A compare match drives LOW (R121). -/
theorem outAfter_match {m : CmpMode} {n d : Nat} (o : Bool) (hn : n ≠ 0) (h : cmpMatch m n d = true) :
    outAfter m n d o = false := by simp [outAfter, hn, h]

/-- Without a match the output holds (R121). -/
theorem outAfter_hold {m : CmpMode} {n d : Nat} (o : Bool) (hn : n ≠ 0) (h : cmpMatch m n d = false) :
    outAfter m n d o = o := by simp [outAfter, hn, h]

/-- Away from the overflow a LOW output stays LOW. -/
theorem outAfter_low {m : CmpMode} {n d : Nat} (hn : n ≠ 0) : outAfter m n d false = false := by
  simp [outAfter, hn]

theorem State.outAfterTick_present {s : State} {c : Chan} (n : Nat) (h : s.cfg.hasChan c = true) :
    s.outAfterTick n c = outAfter s.cfg.cmpMode n (s.duty c).toNat (s.out c) := by simp [State.outAfterTick, h]

theorem State.outAfterTick_absent {s : State} {c : Chan} (n : Nat) (h : s.cfg.hasChan c = false) :
    s.outAfterTick n c = s.out c := by simp [State.outAfterTick, h]

end Sys2Proof.Machine
end

