-- ==== Sys2Proof/Tests/Slice0.lean ====
section
/-! SUPPORT. Tests. Expected results come from the spec: the examples of the rules and the vectors of
95_test_vectors.md (named V-..), whose configurations MINI, W10 and RGB4 are built here. Each test is one operation on a
small state. The witnesses at the end meet the hypotheses of the statements of
Sys2Proof/Certificates/Slice0/Obligations.lean. -/

namespace Sys2Proof.Tests

open Sys2Proof Sys2Proof.Machine

/-! ## Configurations and helpers -/

/-- MINI (95_test_vectors.md section 0). -/
def mini (dInit : Nat := 5) (window : Nat := 0) (mode : CmpMode := .eq) : Config where
  period := 10
  cmpMode := mode
  channels := [{ kind := .duty dInit }]
  sites :=
    [{ target := some .ch0, dir := .inc, step := 2, pol := .wrap, min := 0, max := 10 },
     { target := some .ch0, dir := .dec, step := 3, pol := .clamp, min := 0, max := 10 }]
  dbWindow := window

/-- RGB4 (95_test_vectors.md section 0). -/
def rgb4 (ivlMax : Nat := 65535) (roll : FadeRoll := .hold) : Config where
  period := 4
  channels := [{ kind := .fade, mode := .hw }, { kind := .fade, mode := .hw }, { kind := .fade, mode := .hw }]
  sites := [Config.siteNone, Config.siteNone]
  fade := some { ivlInit := 1, accel := 1, ivlMax := ivlMax, roll := roll }

/-- The next state of an outcome. -/
def next? (o : Host.Outcome State Fault Refusal) : Option State :=
  match o with
  | .next t => some t
  | .fault _ => none
  | .refused _ => none

/-- What `f` shows of the state an operation leaves. -/
def seen {α : Type} (o : Host.Outcome State Fault Refusal) (f : State → α) : Option α := (next? o).map f

/-- The response word and ERR after an operation word. -/
def answer (cfg : Config) (w : OpWord) : Option (Option OpWord × Word) :=
  seen (runWord w (State.resetOf cfg)) fun t => (t.hostPort, t.err)

/-! ## WellFormed refuses -/

theorem test_wf_pin_site : (Instr.pin 16 true).wellFormed = false := by decide
theorem test_wf_svc_site : (Instr.svc 16).wellFormed = false := by decide
theorem test_wf_rd_reg : (Instr.rd 256).wellFormed = false := by decide
theorem test_wf_wr_reg : (Instr.wr 256 0).wellFormed = false := by decide
theorem test_wf_wr_value : (Instr.wr 0 65536).wellFormed = false := by decide

/-- R13 item 1: PERIOD = 0, four channels, three sites. -/
theorem test_wf_sizes : ({ mini with period := 0 } : Config).sizesOk = false ∧
    ({ mini with channels := List.replicate 4 { kind := .duty 1 } } : Config).sizesOk = false ∧
    ({ mini with sites := List.replicate 3 Config.siteNone } : Config).sizesOk = false := by decide

/-- R13 item 2: a FADE channel without a sequencer, a sequencer with a DUTY channel. -/
theorem test_wf_fadeChannels : ({ rgb4 with fade := none } : Config).fadeChannelsOk = false ∧
    ({ mini with fade := some {} } : Config).fadeChannelsOk = false := by decide

/-- R13 item 3: FADE_STEP does not divide PERIOD, FIVL_INIT is above FIVL_MAX. -/
theorem test_wf_fadeParams : ({ rgb4 with fade := some { step := 3 } } : Config).fadeParamsOk = false ∧
    (rgb4 (ivlMax := 0)).fadeParamsOk = false := by decide

/-- R13 item 4: D_INIT above PERIOD, L_INIT above 10, a table entry above PERIOD, a table of ten states. -/
theorem test_wf_startValues : (mini (dInit := 11)).startValuesOk = false ∧
    ({ mini with channels := [{ kind := .level 11 }] } : Config).startValuesOk = false ∧
    ({ mini with levelTable := List.replicate 11 11 } : Config).startValuesOk = false ∧
    ({ mini with levelTable := List.replicate 10 0 } : Config).startValuesOk = false := by decide

/-- R13 item 5: an absent target, a FADE target, bounds above PERIOD, bounds in the wrong order, a step of 0. -/
theorem test_wf_site :
    mini.siteOk { target := some .ch1, dir := .inc, step := 1, pol := .wrap, min := 0, max := 1 } = false ∧
    rgb4.siteOk { target := some .ch0, dir := .inc, step := 1, pol := .wrap, min := 0, max := 1 } = false ∧
    mini.siteOk { target := some .ch0, dir := .inc, step := 1, pol := .wrap, min := 0, max := 11 } = false ∧
    mini.siteOk { target := some .ch0, dir := .inc, step := 1, pol := .wrap, min := 3, max := 2 } = false ∧
    mini.siteOk { target := none, dir := .inc, step := 0, pol := .wrap, min := 0, max := 0 } = false := by decide

/-- The presets of R14 are well formed. -/
theorem test_wf_presets : Config.led2.wellFormed = true ∧ Config.servo.wellFormed = true ∧
    Config.discrete.wellFormed = true ∧ Config.rgb.wellFormed = true := by decide

/-- A configuration that is not well formed has no step (R190). -/
theorem test_step_illFormed :
    step (State.resetOf (mini (dInit := 11))) = .refused .illFormedConfig := by rfl

/-! ## Decoding: one word of each row, written from the pattern of its rule -/

/-- R77. -/
theorem test_decode_tick : decode 0b00010000000000000000000000000000#32 = .ok .tick := by decide
/-- R78. -/
theorem test_decode_ftick : decode 0b00100000000000000000000000000000#32 = .ok .ftick := by decide
/-- R79 with ssss = 1010 and v = 1. -/
theorem test_decode_pin : decode 0b00111010000000000000000000000001#32 = .ok (.pin 10 true) := by decide
/-- R80 with ssss = 0101. -/
theorem test_decode_svc : decode 0b01000101000000000000000000000000#32 = .ok (.svc 5) := by decide
/-- R81 with rrrrrrrr = 10010110. -/
theorem test_decode_rd : decode 0b01010000100101100000000000000000#32 = .ok (.rd 150) := by decide
/-- R82 with rrrrrrrr = 10010110 and an IMM whose top bit is set: it is zero-extended (R83). -/
theorem test_decode_wr : decode 0b01100000100101101000000000000001#32 = .ok (.wr 150 32769) := by decide
/-- R84, and R85's example. -/
theorem test_decode_illegal : decode 0x00000000#32 = .error .reservedOp ∧ decode 0x70000000#32 = .error .reservedOp ∧
    decode 0x30000002#32 = .error .reservedBits := by decide

/-- The same words numbered as the opcode table numbers them. -/
theorem test_decodeTableWord : decodeTableWord 32 0x10000000 = some .tick ∧
    decodeTableWord 32 0x31000001 = some (.pin 1 true) ∧ decodeTableWord 32 0x601003E8 = some (.wr 16 1000) ∧
    decodeTableWord 32 0x51100000 = none := by decide

/-- A presented word is the next one a step runs: 95_test_vectors.md V-R2's first TICK of LED2. -/
theorem test_withFetchWord : seen (step (State.reset.withFetchWord 32 0x10000000)) (fun t => (t.cnt, t.hostPort)) =
    some (1#16, some 0#32) := by decide

/-! ## The assembler (R90, R91; the examples of 95_test_vectors.md 2.1) -/

theorem test_asm_button : Asm.assemble 10 "button 0" = some [0x30000001#32, 0x30000000#32, 0x40000000#32] := by decide
theorem test_asm_cfg : Asm.assemble 10 "cfg 1, 1, 0 ; enable" = some [0x60090001#32] := by decide
theorem test_asm_hex : Asm.assemble 10 "wr 0x10, 0x3E8" = some [0x601003E8#32] := by decide
theorem test_asm_refuses : Asm.assemble 10 "pin 0, 2" = none ∧ Asm.assemble 10 "wr D0, 65536" = none := by decide

/-! ## TICK -/

/-- The example of R118: PERIOD 10, D = 3, CNT = 2, OUT = 1 gives CNT = 3, OUT = 0 (V-W3, TICK 3). -/
theorem test_tick_match : seen (exec .tick { State.resetOf (mini 3) with cnt := 2 }) (fun t => (t.cnt, t.out .ch0)) =
    some (3#16, false) := by decide

/-- V-W1: the overflow with D = 0 drives LOW. -/
theorem test_tick_overflow : seen (exec .tick (({ State.resetOf (mini 0) with cnt := 9 }).setOuts fun _ => true))
    (fun t => (t.cnt, t.out .ch0)) = some (0#16, false) := by decide

/-- V-W11: CNT 5, OUT 1, D lowered to 3. Under EQ the next TICK leaves OUT 1, under GE it drives LOW. -/
theorem test_tick_missed : seen (exec .tick { State.resetOf (mini 3) with cnt := 5 }) (fun t => t.out .ch0) = some true ∧
    seen (exec .tick { State.resetOf (mini 3 0 .ge) with cnt := 5 }) (fun t => t.out .ch0) = some false := by decide

/-- V-W14: DBC counts down to 0 and stays there. -/
theorem test_tick_dbc : seen (exec .tick ((State.resetOf (mini 5 3)).setDbc .s0 3)) (fun t => (t.dbc .s0, t.dbc .s1)) =
    some (2#16, 0#16) := by decide

/-! ## FTICK -/

/-- V-F1. -/
theorem test_ftick_absent : next? (exec .ftick (State.resetOf mini)) =
    some { State.resetOf mini with resp := some (.ok 0) } := by decide

/-- V-F4, fade tick 4 of RGB4: from D = (1, 3, 0), FCNT 3, FIVL 4 to D = (0, 4, 0), PHASE 1, FCNT 0, FIVL 5. -/
theorem test_ftick_phase : seen (exec .ftick
    ((((((State.resetOf rgb4).setDuty .ch0 1).setDuty .ch1 3).setFcnt 3).setFivl 4)))
    (fun t => [t.duty .ch0, t.duty .ch1, t.duty .ch2, BitVec.ofNat 16 t.phase.num, t.fcnt, t.fivl]) =
    some [0#16, 4#16, 0#16, 1#16, 0#16, 5#16] := by decide

/-- V-F7, fade tick 3 with FIVL_MAX 3: HOLD gives 3, RESET gives 1. -/
theorem test_ftick_roll :
    seen (exec .ftick (((State.resetOf (rgb4 3)).setFcnt 2).setFivl 3)) (fun t => t.fivl) = some 3#16 ∧
    seen (exec .ftick (((State.resetOf (rgb4 3 .reset)).setFcnt 2).setFivl 3)) (fun t => t.fivl) = some 1#16 := by decide

/-! ## PIN -/

/-- The example of R97, and V-E31's lock-out. -/
theorem test_pin_edge : seen (exec (.pin 0 true) (State.resetOf (mini 5 3))) (fun t => (t.pinl .s0, t.pend .s0, t.dbc .s0)) =
    some (true, true, 3#16) := by decide

/-- V-E32: an edge in the lock-out changes only PINL. -/
theorem test_pin_lockout : seen (exec (.pin 0 true) ((State.resetOf (mini 5 3)).setDbc .s0 2))
    (fun t => (t.pinl .s0, t.pend .s0, t.dbc .s0)) = some (true, false, 2#16) := by decide

/-! ## SVC -/

/-- The example of R104: SERVO at 19000 stays at 19000 and clears PEND. -/
theorem test_svc_clamp : seen (exec (.svc 0) (((State.resetOf Config.servo).setDuty .ch0 19000).setPend .s0 true))
    (fun t => (t.duty .ch0, t.pend .s0)) = some (19000#16, false) := by decide

/-- V-E23: DISCRETE at level 0, the DEC site wraps to 10 and D follows. -/
theorem test_svc_level : seen (exec (.svc 1) (((State.resetOf Config.discrete).setLevelAlias .ch0 0).setPend .s1 true))
    (fun t => (t.level .ch0, t.duty .ch0)) = some (10#16, 1000#16) := by decide

/-! ## RD and WR -/

/-- V-H14 and V-H15 in one: RD ERR answers ERR and leaves it. -/
theorem test_rd_err : seen (exec (.rd 3) { State.resetOf mini with err := 0x01B4 }) (fun t => (t.resp, t.err)) =
    some (some (.ok 0x01B4#16), 0x01B4#16) := by decide

/-- V-H19: RD OUT of LED2. -/
theorem test_rd_out : answer Config.led2 0x50020000#32 = some (some 0x00000003#32, 0#16) := by decide

/-- V-H10: WR SITECFG0, 2. -/
theorem test_wr_siteCfg : seen (exec (.wr 8 2) (State.resetOf Config.led2)) (fun t => (t.ie .s0, t.esel .s0)) =
    some (false, .falling) := by decide

/-- V-H25: WR L0, 7 of DISCRETE sets D with it. -/
theorem test_wr_level : seen (exec (.wr 0x14 7) (State.resetOf Config.discrete)) (fun t => (t.level .ch0, t.duty .ch0)) =
    some (7#16, 700#16) := by decide

/-! ## The nine fault codes (95_test_vectors.md 2.6), with their response words and ERR bits -/

theorem test_fault_illegalOp : answer mini 0x00000000#32 = some (some 0x80010000#32, 0x0002#16) := by decide
/-- V-H7, in MINI (95_test_vectors.md 2.1). -/
theorem test_fault_outOfRangeDuty : answer mini 0x601003E8#32 = some (some 0x80020000#32, 0x0004#16) := by decide
/-- V-H24. -/
theorem test_fault_outOfRangeLevel : answer Config.discrete 0x6014000B#32 = some (some 0x80030000#32, 0x0008#16) := by
  decide
/-- V-H4. -/
theorem test_fault_badRegister : answer Config.led2 0x50180000#32 = some (some 0x80040000#32, 0x0010#16) := by decide
/-- V-H31. -/
theorem test_fault_readOnly : answer Config.rgb 0x601A0005#32 = some (some 0x80050000#32, 0x0020#16) := by decide
/-- 95_test_vectors.md 2.1, the word 0x3F000001. -/
theorem test_fault_badIndex : answer mini 0x3F000001#32 = some (some 0x80060000#32, 0x0040#16) := by decide
/-- V-H23: WRITE_CONFLICT comes before OUT_OF_RANGE_DUTY (R152). -/
theorem test_fault_writeConflict : answer Config.discrete 0x601007D0#32 = some (some 0x80070000#32, 0x0080#16) := by
  decide
/-- V-H9. -/
theorem test_fault_badValue : answer Config.led2 0x60080004#32 = some (some 0x80080000#32, 0x0100#16) := by decide
/-- 95_test_vectors.md 2.1, the word 0x40000000. -/
theorem test_fault_svcNotEnabled : answer mini 0x40000000#32 = some (some 0x80090000#32, 0x0200#16) := by decide

/-- The reset-state table of 95_test_vectors.md section 0, for RGB4 and DISCRETE. -/
theorem test_reset : (State.resetOf rgb4).chans = ⟨⟨true, 4, 0⟩, ⟨false, 0, 0⟩, ⟨false, 0, 0⟩⟩ ∧
    (State.resetOf rgb4).fade = ⟨0, .redToGreen, 1⟩ ∧ (State.resetOf Config.discrete).chans.ch0 = ⟨true, 500, 5⟩ := by
  decide

/-! ## Witnesses: states and operands that meet the hypotheses of each statement that has some

A statement of several clauses has a state for each; where a clause has a range, the operand stands at its boundary. -/

/-- LED2 with the words `ws` presented. -/
def led2With (ws : List OpWord) : State := { State.reset with stream := ws }

/-- Only TICKs. -/
def onlyTicks : Nat → OpWord := fun _ => encode .tick

/-- A DISCRETE-like instance of PERIOD 10 (LEVEL_TABLE[k] = k) at level `l`. -/
def levels (l : Nat := 5) : Config where
  period := 10
  channels := [{ kind := .level l }]
  sites := [{ target := some .ch0, dir := .inc, step := 1, pol := .wrap, min := 0, max := 10 }]

/-- MINI with the edge of each site pending. -/
def pending (cfg : Config) : State := ((State.resetOf cfg).setPend .s0 true).setPend .s1 true

/-- A site with the given direction and policy: step 2 on channel 0, bounds [0, 10]. -/
def siteOf (dir : Dir) (pol : Policy) : SiteCfg where
  target := some .ch0
  dir := dir
  step := 2
  pol := pol
  min := 0
  max := 10

theorem witness_StepRunsDecodedOperation :
    (led2With [0x10000000#32]).cfg.wellFormed = true ∧ (led2With [0x10000000#32]).stream = [0x10000000#32] ∧
      decode 0x10000000#32 = .ok .tick := by decide

theorem witness_StepRefusesIllegalWord :
    (led2With [0#32]).cfg.wellFormed = true ∧ (led2With [0#32]).stream = [0#32] ∧
      decode 0#32 = .error .reservedOp := by decide

theorem witness_StepWaitsForAnOperation : State.reset.cfg.wellFormed = true ∧ State.reset.stream = [] := by decide

theorem witness_IllFormedConfigurationHasNoRun :
    (mini (dInit := 11)).wellFormed = false ∧ (mini (dInit := 10)).wellFormed = true ∧
      (State.resetOf (mini (dInit := 11))).cfg.wellFormed = false := by decide

theorem witness_DecodeOfEncode :
    (Instr.pin 15 true).wellFormed = true ∧ (Instr.svc 15).wellFormed = true ∧ (Instr.rd 255).wellFormed = true ∧
      (Instr.wr 255 65535).wellFormed = true ∧ Instr.tick.wellFormed = true ∧ Instr.ftick.wellFormed = true := by decide

theorem witness_EncodeOfDecode :
    decode 0x3F000001#32 = .ok (.pin 15 true) ∧ decode 0x60FFFFFF#32 = .ok (.wr 255 65535) := by decide

theorem witness_SpecExampleWords : (State.resetOf Config.led2).cfg.isDutyChan .ch0 = true ∧
    (State.resetOf Config.led2).cfg.period = 1000 := by decide

/-- OP 0x0, and 0x7 at the lower end of the reserved range. -/
theorem witness_ReservedOpcodeRaisesIllegalOp :
    (0x00000000#32).toNat / 2 ^ 28 = 0 ∧ 7 ≤ (0x70000000#32).toNat / 2 ^ 28 ∧
      ¬ 7 ≤ (0x6FFFFFFF#32).toNat / 2 ^ 28 := by decide

/-- One word for each operation, with the lowest or the highest of its reserved bits set. -/
theorem witness_ReservedBitRaisesIllegalOp :
    (opField 0x10000001#32 = 0x1#4 ∧ 0x10000001#32 &&& 0x0FFFFFFF#32 ≠ 0) ∧
    (opField 0x28000000#32 = 0x2#4 ∧ 0x28000000#32 &&& 0x0FFFFFFF#32 ≠ 0) ∧
    (opField 0x30000002#32 = 0x3#4 ∧ 0x30000002#32 &&& 0x00FFFFFE#32 ≠ 0) ∧
    (opField 0x40800000#32 = 0x4#4 ∧ 0x40800000#32 &&& 0x00FFFFFF#32 ≠ 0) ∧
    (opField 0x50000001#32 = 0x5#4 ∧ 0x50000001#32 &&& 0x0F00FFFF#32 ≠ 0) ∧
    (opField 0x61000000#32 = 0x6#4 ∧ 0x61000000#32 &&& 0x0F000000#32 ≠ 0) := by decide

theorem witness_OneTableRowPerWord :
    Instr.row .tick ∈ opcodeTable ∧ (Instr.row .tick).selects 0x10000000#32 = true ∧
      decode 0x10000000#32 = .ok .tick ∧ decode 0x10000001#32 = .error .reservedBits := by decide

theorem witness_EveryOperationAnswersOneResponse :
    seen (runWord 0x50000000#32 State.reset) (fun t => t.resp) = some (some (.ok 1000#16)) := by decide

theorem witness_AssemblerRefusesUnfitOperands : 15 < 16 ∧ 1 < 2 ∧ 255 < 256 ∧ 65535 < 65536 := by decide

theorem witness_PseudoOperationsExpand : 1 ≤ 1 ∧ 15 ≤ 15 ∧ 2 ≤ 2 ∧ 65535 ≤ 65535 := by decide

theorem witness_ResetValues :
    (mini.wellFormed = true ∧ mini.chan? .ch0 = some ⟨.duty 5, .sw⟩ ∧ (mini.site? .s1).isSome = true ∧
      mini.hasChan .ch0 = true) ∧
    (levels.wellFormed = true ∧ levels.chan? .ch0 = some ⟨.level 5, .sw⟩) ∧
    (rgb4.wellFormed = true ∧ rgb4.fadeEn = true ∧ rgb4.fade.isSome = true) := by decide

theorem witness_ResetSatisfiesInvariants :
    mini.wellFormed = true ∧ levels.wellFormed = true ∧ rgb4.wellFormed = true := by decide

theorem witness_StepKeepsInvariants : (led2With [0x10000000#32]).Inv ∧
    (next? (step (led2With [0x10000000#32]))).isSome = true :=
  ⟨State.inv_of_check (by decide), by decide⟩

theorem witness_StepKeepsConfiguration : (next? (step (led2With [0x10000000#32]))).isSome = true := by decide

theorem witness_FaultEntryChangesOnlyErr :
    seen (runWord 0x40000000#32 State.reset) (fun t => t.resp) = some (some (.fault .svcNotEnabled)) := by decide

/-- One operation that faults and one that answers OK. -/
theorem witness_ErrIsSticky :
    seen (runWord 0x00000000#32 State.reset) (fun t => t.resp) = some (some (.fault .illegalOp)) ∧
    seen (runWord 0x10000000#32 State.reset) (fun t => t.resp) = some (some (.ok 0)) := by decide

/-- A channel and a site that exist, and ones that do not. -/
theorem witness_TickResultAndFrame : (State.resetOf mini).cfg.wellFormed = true ∧ mini.hasSite .s1 = true ∧
    mini.hasChan .ch0 = true ∧ mini.hasChan .ch1 = false ∧ ({ mini with sites := [] } : Config).wellFormed = true ∧
    ({ mini with sites := [] } : Config).hasSite .s0 = false := by decide

/-- At the last count of the period: D not 0, and D = 0. -/
theorem witness_OverflowDrivesOutputs :
    let s : State := { State.resetOf (mini 1) with cnt := 9 }
    let z : State := { State.resetOf (mini 0) with cnt := 9 }
    (s.cfg.wellFormed = true ∧ (s.cnt.toNat + 1) % s.cfg.period = 0 ∧ s.cfg.hasChan .ch0 = true ∧ s.duty .ch0 ≠ 0) ∧
    (z.cfg.wellFormed = true ∧ (z.cnt.toNat + 1) % z.cfg.period = 0 ∧ z.cfg.hasChan .ch0 = true ∧ z.duty .ch0 = 0) := by
  decide

/-- The new count 3 against D = 3 (a match in both modes) and against D = 4 (none), in each mode. -/
theorem witness_CompareMatchDrivesLow :
    let at2 := fun (d : Nat) (m : CmpMode) => { State.resetOf (mini d 0 m) with cnt := (2 : Word) }
    let after := fun (s : State) => seen (exec .tick s) fun t => t.cnt.toNat
    ((at2 3 .eq).cfg.wellFormed = true ∧ (at2 3 .eq).cfg.hasChan .ch0 = true ∧
      ((at2 3 .eq).cnt.toNat + 1) % (at2 3 .eq).cfg.period ≠ 0) ∧
    ((at2 3 .eq).cfg.cmpMode = .eq ∧ after (at2 3 .eq) = some 3 ∧ ((at2 3 .eq).duty .ch0).toNat = 3) ∧
    ((at2 3 .ge).cfg.cmpMode = .ge ∧ after (at2 3 .ge) = some 3 ∧ ((at2 3 .ge).duty .ch0).toNat = 3) ∧
    ((at2 4 .eq).cfg.cmpMode = .eq ∧ after (at2 4 .eq) = some 3 ∧ ((at2 4 .eq).duty .ch0).toNat = 4) ∧
    ((at2 4 .ge).cfg.cmpMode = .ge ∧ after (at2 4 .ge) = some 3 ∧ ((at2 4 .ge).duty .ch0).toNat = 4) := by decide

theorem witness_CounterCountsModuloPeriod : (State.resetOf mini).Inv ∧ (State.resetOf mini).cnt = 0 ∧ 0 < 9 ∧
    9 < (State.resetOf mini).cfg.period :=
  ⟨State.inv_of_check (by decide), by decide⟩

/-- Every premise, over the first six TICKs of a period with D = 5: the count of the match and the one after it. -/
theorem witness_SteadyWaveform :
    let s := State.resetOf mini
    s.Inv ∧ s.cfg.hasChan .ch0 = true ∧ s.cnt = 0 ∧ s.out .ch0 = decide (s.duty .ch0 ≠ 0) ∧
      (∀ m, m ≤ 6 → (s.trace onlyTicks m).duty .ch0 = s.duty .ch0) ∧ ticksAmong onlyTicks 6 < s.cfg.period :=
  ⟨State.inv_of_check (by decide), by decide⟩

/-- D = 0 and D = PERIOD. -/
theorem witness_HighTimeIsExactlyDuty :
    (State.resetOf (mini 0)).Inv ∧ (State.resetOf (mini 10)).Inv ∧ mini.hasChan .ch0 = true ∧
    (State.resetOf (mini 0)).out .ch0 = decide ((State.resetOf (mini 0)).duty .ch0 ≠ 0) ∧
    (State.resetOf (mini 10)).out .ch0 = decide ((State.resetOf (mini 10)).duty .ch0 ≠ 0) :=
  ⟨State.inv_of_check (by decide), State.inv_of_check (by decide), by decide⟩

/-- D = CNT = 3 with OUT 1 under EQ; under GE with the next count the last of the period. -/
theorem witness_MissedThreshold :
    (let s : State := { State.resetOf (mini 3) with cnt := 3 }
     s.Inv ∧ s.cfg.hasChan .ch0 = true ∧ s.cfg.cmpMode = .eq ∧ s.out .ch0 = true ∧
      (s.duty .ch0).toNat ≤ s.cnt.toNat ∧ (∀ m, m ≤ 6 → (s.trace onlyTicks m).duty .ch0 = s.duty .ch0) ∧
      s.cnt.toNat + ticksAmong onlyTicks 6 < s.cfg.period) ∧
    (let s : State := { State.resetOf (mini 3 0 .ge) with cnt := 8 }
     s.Inv ∧ s.cfg.hasChan .ch0 = true ∧ s.cfg.cmpMode = .ge ∧ (s.duty .ch0).toNat ≤ s.cnt.toNat ∧
      s.cnt.toNat + 1 < s.cfg.period) :=
  ⟨⟨State.inv_of_check (by decide), by decide⟩, ⟨State.inv_of_check (by decide), by decide⟩⟩

/-- Before the match with CNT one below D; after it with OUT 0. -/
theorem witness_RaceProperty :
    (let s : State := { State.resetOf (mini 3) with cnt := 2 }
     s.Inv ∧ s.cfg.hasChan .ch0 = true ∧ s.out .ch0 = true ∧ s.cnt.toNat < (s.duty .ch0).toNat ∧
      (∀ m, m ≤ 7 → (s.trace onlyTicks m).duty .ch0 = s.duty .ch0) ∧
      s.cnt.toNat + ticksAmong onlyTicks 7 < s.cfg.period) ∧
    (let s := State.resetOf (mini 0)
     s.Inv ∧ s.out .ch0 = false ∧ s.cnt.toNat + ticksAmong onlyTicks 9 < s.cfg.period) :=
  ⟨⟨State.inv_of_check (by decide), by decide⟩, ⟨State.inv_of_check (by decide), by decide⟩⟩

/-- PERIOD = 1 with D = 1. -/
theorem witness_PeriodOne :
    let s := State.resetOf { period := 1, channels := [{ kind := .duty 1 }] }
    s.Inv ∧ s.cfg.period = 1 ∧ s.cfg.hasChan .ch0 = true :=
  ⟨State.inv_of_check (by decide), by decide⟩

theorem witness_OutputsNeverFeedBack :
    let s := led2With [0x50020000#32]
    s.EqButOut (s.setOuts fun _ => false) ∧ (s.setOuts fun _ => false).out .ch0 ≠ s.out .ch0 ∧
      (next? (step s)).isSome = true := by
  refine ⟨⟨⟨rfl, rfl⟩, rfl, rfl, fun c => ?_, fun i => ⟨rfl, rfl, rfl, rfl, rfl⟩, ⟨rfl, rfl, rfl⟩⟩, by decide⟩
  cases c <;> exact ⟨rfl, rfl⟩

theorem witness_ChannelModeChangesNothing :
    (next? (step { State.resetOf rgb4 with stream := [0x20000000#32] })).isSome = true := by decide

theorem witness_FtickWithoutSequencer : (State.resetOf mini).cfg.fadeEn = false := by decide

/-- FIVL 2, FCNT 0: the last FTICK that is not a fade tick. -/
theorem witness_FtickBetweenFadeTicks :
    let s := (State.resetOf rgb4).setFivl 2
    s.Inv ∧ s.cfg.fadeEn = true ∧ s.fcnt.toNat + 1 < s.fivl.toNat :=
  ⟨State.inv_of_check (by decide), by decide⟩

/-- RGB4 at reset: a fade tick that does not end the phase; the interval grows. With D = (1, 3, 0) the phase ends; with
FIVL at FIVL_MAX the interval is full, under HOLD and under RESET. -/
theorem witness_FadeTickResultAndFrame :
    let s := State.resetOf rgb4
    let e := ((State.resetOf rgb4).setDuty .ch0 1).setDuty .ch1 3
    let h := ((State.resetOf (rgb4 3)).setFcnt 2).setFivl 3
    let r := ((State.resetOf (rgb4 3 .reset)).setFcnt 2).setFivl 3
    (s.Inv ∧ e.Inv ∧ h.Inv ∧ r.Inv) ∧
    (s.cfg.fade = some { ivlInit := 1, accel := 1 } ∧ s.fcnt.toNat + 1 = s.fivl.toNat ∧
      Chan.ch0.num = s.phase.num ∧ Chan.ch1.num = (s.phase.num + 1) % 3) ∧
    (e.fcnt.toNat + 1 = e.fivl.toNat ∧ seen (exec .ftick e) (fun t => t.duty .ch0) = some 0) ∧
    (h.cfg.fade = some { ivlInit := 1, accel := 1, ivlMax := 3 } ∧ h.fcnt.toNat + 1 = h.fivl.toNat ∧
      3 < h.fivl.toNat + 1) ∧
    (r.cfg.fade = some { ivlInit := 1, accel := 1, ivlMax := 3, roll := .reset } ∧ r.fcnt.toNat + 1 = r.fivl.toNat ∧
      3 < r.fivl.toNat + 1) :=
  ⟨⟨State.inv_of_check (by decide), State.inv_of_check (by decide), State.inv_of_check (by decide),
    State.inv_of_check (by decide)⟩, by decide⟩

/-- The last fade tick of a phase of RGB4 is j = 3 of 4. -/
theorem witness_FadeCycleReturns : rgb4.wellFormed = true ∧ rgb4.fade = some { ivlInit := 1, accel := 1 } ∧
    3 < rgb4.period / 1 := by decide

/-- FIVL_MAX = 3: the interval after two fade ticks is the last that fits; the third fade tick rolls over. -/
theorem witness_FadeSchedule : (rgb4 3).wellFormed = true ∧
    (rgb4 3).fade = some { ivlInit := 1, accel := 1, ivlMax := 3 } ∧ 1 + 2 * 1 ≤ 3 ∧ 1 + (3 - 1) * 1 ≤ 3 ∧
    (rgb4 3 .reset).fade = some { ivlInit := 1, accel := 1, ivlMax := 3, roll := .reset } := by decide

theorem witness_HoldNeverSpeedsUp :
    let s : State := { State.resetOf (rgb4 2) with stream := [encode .ftick] }
    s.Inv ∧ s.cfg.fade = some { ivlInit := 1, accel := 1, ivlMax := 2 } ∧ (next? (step s)).isSome = true ∧
      s.stream = encode .ftick :: [] ∧ s.fcnt.toNat + 1 = s.fivl.toNat ∧ s.fivl.toNat < 2 :=
  ⟨State.inv_of_check (by decide), by decide⟩

/-- An accepted edge in each direction, an edge in the lock-out, and no edge. -/
theorem witness_PinResultAndFrame :
    let s := State.resetOf (mini 5 3)
    let f := ((State.resetOf mini).setEsel .s0 .falling).setPinl .s0 true
    (s.cfg.wellFormed = true ∧ s.cfg.hasSite .s0 = true ∧ s.pinl .s0 ≠ true ∧ s.esel .s0 = .rising ∧ s.dbc .s0 = 0) ∧
    (f.cfg.wellFormed = true ∧ f.pinl .s0 ≠ false ∧ f.esel .s0 = .falling ∧ f.dbc .s0 = 0) ∧
    (s.setDbc .s0 1).dbc .s0 ≠ 0 ∧ s.pinl .s0 = false := by decide

/-- The index NSITES itself, and every index without sites. -/
theorem witness_BadSiteIndexFaults : (State.resetOf mini).cfg.nsites ≤ 2 ∧
    (State.resetOf { mini with sites := [] }).cfg.nsites ≤ 0 := by decide

/-- Not pending; pending and not enabled. -/
theorem witness_SvcNotEnabledFaults :
    let s := State.resetOf mini
    let m := ((State.resetOf mini).setPend .s0 true).setIe .s0 false
    s.cfg.hasSite .s0 = true ∧ s.pend .s0 = false ∧ m.cfg.hasSite .s0 = true ∧ m.pend .s0 = true ∧ m.ie .s0 = false := by
  decide

/-- Both directions and both policies, each with the step past a bound. -/
theorem witness_SvcUpdatesDuty :
    ∀ dir ∈ [Dir.inc, Dir.dec], ∀ pol ∈ [Policy.wrap, Policy.clamp],
      let sc := siteOf dir pol
      let s := ((State.resetOf { mini with sites := [sc] }).setDuty .ch0 (if dir = .inc then 9 else 1)).setPend .s0 true
      s.cfg.wellFormed = true ∧ s.cfg.site? .s0 = some sc ∧ sc.target = some .ch0 ∧ s.cfg.isDutyChan .ch0 = true ∧
        s.pend .s0 = true ∧ s.ie .s0 = true := by decide

theorem witness_SvcUpdatesLevel :
    ∀ dir ∈ [Dir.inc, Dir.dec], ∀ pol ∈ [Policy.wrap, Policy.clamp],
      let sc := siteOf dir pol
      let s := (State.resetOf { levels (if dir = .inc then 10 else 0) with sites := [sc] }).setPend .s0 true
      s.cfg.wellFormed = true ∧ s.cfg.site? .s0 = some sc ∧ sc.target = some .ch0 ∧ s.cfg.isLevelChan .ch0 = true ∧
        s.pend .s0 = true ∧ s.ie .s0 = true := by decide

theorem witness_SvcWithoutTarget :
    (pending rgb4).cfg.site? .s0 = some Config.siteNone ∧ Config.siteNone.target = none ∧
      (pending rgb4).pend .s0 = true ∧ (pending rgb4).ie .s0 = true := by decide

/-- A DUTY target and a LEVEL target, each serviced. -/
theorem witness_SvcLandsWithinBounds :
    (mini.wellFormed = true ∧ mini.site? .s0 = some (siteOf .inc .wrap) ∧ mini.isDutyChan .ch0 = true ∧
      seen (exec (.svc 0) (pending mini)) (fun t => t.resp) = some (some (.ok 0))) ∧
    (levels.wellFormed = true ∧ (levels.site? .s0).isSome = true ∧ levels.isLevelChan .ch0 = true ∧
      seen (exec (.svc 0) ((State.resetOf levels).setPend .s0 true)) (fun t => t.resp) = some (some (.ok 0))) := by decide

/-- A serviced edge, and a TICK between the two SVC. -/
theorem witness_EdgeIsServicedOnce :
    (pending mini).cfg.hasSite .s0 = true ∧
      seen (exec (.svc Site.s0.num) (pending mini)) (fun t => t.resp) = some (some (.ok 0)) ∧
      ∀ w ∈ [0x10000000#32], ∀ v, decode w ≠ .ok (.pin Site.s0.num v) := by
  refine ⟨by decide, by decide, fun w hw v => ?_⟩
  rw [List.mem_singleton.mp hw, test_decode_tick]
  simp

/-- Bounds that the step does not divide: [0, 9] by 2. -/
theorem witness_WrapSawtooth :
    let sc := { siteOf .inc .wrap with max := 9 }
    sc.dir = .inc ∧ sc.pol = .wrap ∧ 1 ≤ sc.step ∧ sc.min ≤ sc.max ∧
      ((4 : Nat) : Int) ≤ (sc.max - sc.min) / sc.step := by decide

/-- A run of SVC words only, on an instance with one site: fair, and the site exists. -/
theorem witness_NoServiceStaysEnabledForEver :
    let s := State.resetOf levels
    s.cfg.wellFormed = true ∧ s.FairServices (fun _ => encode (.svc 0)) ∧ s.cfg.hasSite .s0 = true := by
  refine ⟨by decide, ?_, by decide⟩
  intro i n hi _
  cases i
  · exact ⟨n, Nat.le_refl n, rfl⟩
  · exact absurd hi (by decide)

theorem witness_RdAnswersRegister :
    ((State.resetOf mini).cfg.wellFormed = true ∧ mini.hasSite .s1 = true ∧ mini.hasChan .ch0 = true) ∧
    ((State.resetOf rgb4).cfg.wellFormed = true ∧ rgb4.hasChan .ch2 = true ∧ rgb4.fadeEn = true) := by decide

theorem witness_RdHasNoSideEffect :
    seen (exec (.rd 0) (State.resetOf mini)) (fun t => t.resp) = some (some (.ok 10)) ∧
    ((next? (exec (.rd 0) (State.resetOf mini))).bind fun t => next? (exec (.rd 0) t)).isSome = true := by decide

/-- 0x06 (never mapped), 0x09 with one site, 0x12 with two channels, 0x18 without a sequencer, 0xFF: R57's examples. -/
theorem witness_UnmappedRegisterFaults :
    ∀ q ∈ [(State.resetOf mini, 0x06), (State.resetOf levels, 0x09), (State.reset, 0x12), (State.resetOf mini, 0x18),
        (State.resetOf rgb4, 0x1B), (State.resetOf mini, 0xFF)],
      q.1.cfg.wellFormed = true ∧ ¬(q.2 ≤ 0x05) ∧ (∀ k, k < q.1.cfg.nsites → q.2 ≠ 0x08 + k ∧ q.2 ≠ 0x0C + k) ∧
        (∀ k, k < q.1.cfg.nch → q.2 ≠ 0x10 + k ∧ q.2 ≠ 0x14 + k) ∧
        (q.1.cfg.fadeEn = true → q.2 ≠ 0x18 ∧ q.2 ≠ 0x19 ∧ q.2 ≠ 0x1A) := by decide

theorem witness_ReadOnlyRegisterFaults :
    ((State.resetOf mini).cfg.wellFormed = true ∧ mini.hasSite .s1 = true) ∧
    ((State.resetOf rgb4).cfg.wellFormed = true ∧ rgb4.fadeEn = true) := by decide

/-- The values 3 and 4, on the last site. -/
theorem witness_WrSiteConfig : (State.resetOf mini).cfg.hasSite .s1 = true ∧ 3 < 4 ∧ 2 < 4 ∧ 2 % 2 = 0 ∧ 4 ≤ 4 := by decide

/-- The values PERIOD and PERIOD + 1 on a DUTY channel; a LEVEL and a FADE channel. -/
theorem witness_WrDuty :
    (mini.wellFormed = true ∧ mini.hasChan .ch0 = true ∧ mini.isDutyChan .ch0 = true ∧ 10 ≤ mini.period ∧
      mini.period < 11) ∧
    (levels.wellFormed = true ∧ levels.hasChan .ch0 = true ∧ levels.isDutyChan .ch0 = false) ∧
    (rgb4.wellFormed = true ∧ rgb4.hasChan .ch2 = true ∧ rgb4.isDutyChan .ch2 = false) := by decide

/-- The values 10 and 11 on a LEVEL channel; a DUTY and a FADE channel. -/
theorem witness_WrLevel :
    (levels.wellFormed = true ∧ levels.hasChan .ch0 = true ∧ levels.isLevelChan .ch0 = true ∧ 10 ≤ 10 ∧ 10 < 11) ∧
    (mini.wellFormed = true ∧ mini.hasChan .ch0 = true ∧ mini.isLevelChan .ch0 = false) ∧
    (rgb4.wellFormed = true ∧ rgb4.hasChan .ch2 = true ∧ rgb4.isLevelChan .ch2 = false) := by decide

theorem witness_AcceptedWriteIsIdempotent :
    seen (exec (.wr 0x10 10) (State.resetOf mini)) (fun t => t.resp) = some (some (.ok 0)) := by decide

/-- Each of the four writers changes its register. -/
theorem witness_DutyRegisterWriters :
    ((pending mini).Inv ∧ (State.resetOf mini).Inv ∧ (State.resetOf levels).Inv ∧ (State.resetOf rgb4).Inv) ∧
    (mini.chan? .ch0 = some ⟨.duty 5, .sw⟩ ∧ levels.chan? .ch0 = some ⟨.level 5, .sw⟩ ∧
      rgb4.chan? .ch0 = some ⟨.fade, .hw⟩) ∧
    seen (runWord 0x40000000#32 (pending mini)) (fun t => t.duty .ch0) = some 7 ∧
    seen (runWord 0x60100001#32 (State.resetOf mini)) (fun t => t.duty .ch0) = some 1 ∧
    seen (runWord 0x60140001#32 (State.resetOf levels)) (fun t => t.duty .ch0) = some 1 ∧
    seen (runWord 0x20000000#32 (State.resetOf rgb4)) (fun t => t.duty .ch0) = some 3 :=
  ⟨⟨State.inv_of_check (by decide), State.inv_of_check (by decide), State.inv_of_check (by decide),
    State.inv_of_check (by decide)⟩, by decide⟩

/-- Each element of the statement changes in some operation. -/
theorem witness_ElementWriters :
    seen (runWord 0x10000000#32 (State.resetOf (mini 1 3))) (fun t => (t.cnt, t.out .ch0)) = some (1#16, false) ∧
    seen (runWord 0x20000000#32 (State.resetOf rgb4)) (fun t => t.fivl) = some 2 ∧
    seen (runWord 0x30000001#32 (State.resetOf (mini 1 3))) (fun t => (t.pinl .s0, t.pend .s0, t.dbc .s0)) =
      some (true, true, 3#16) ∧
    seen (runWord 0x40000000#32 (pending mini)) (fun t => t.pend .s0) = some false ∧
    seen (runWord 0x60080002#32 (State.resetOf mini)) (fun t => (t.ie .s0, t.esel .s0)) = some (false, .falling) := by
  decide

end Sys2Proof.Tests
end

section
/-! SUPPORT. A register number that names no register (10_state.md R57): RD and WR of it are refused with
BAD_REGISTER. -/

namespace Sys2Proof.Machine

/-- Fault entry of R165 for BAD_REGISTER, written out: code 4 is bit 4 of ERR. -/
theorem State.raise_badRegister (s : State) :
    s.raise .badRegister = { s with err := s.err ||| 0x0010#16, resp := some (.fault .badRegister) } := rfl

theorem execRd_unmapped {s : State} {n : Nat} (h : regAt s.cfg n = none) :
    execRd n s = .next (s.raise .badRegister) := by
  simp [execRd, h]

theorem execWr_unmapped {s : State} {n : Nat} (x : Nat) (h : regAt s.cfg n = none) :
    execWr n x s = .next (s.raise .badRegister) := by
  simp [execWr, h]

/-- R57 in the terms of the map of R43: a number outside every present row of the table names no register. -/
theorem regAt_unmapped {cfg : Config} {n : Nat} (hfixed : ¬ n ≤ 0x05)
    (hsite : ∀ k, k < cfg.nsites → n ≠ 0x08 + k ∧ n ≠ 0x0C + k)
    (hchan : ∀ k, k < cfg.nch → n ≠ 0x10 + k ∧ n ≠ 0x14 + k)
    (hfade : cfg.fadeEn = true → n ≠ 0x18 ∧ n ≠ 0x19 ∧ n ≠ 0x1A) : regAt cfg n = none := by
  refine regAt_eq_none fun r hp => ?_
  cases r with
  | period | cnt | out | err | pend | pinl => simp only [Reg.num]; omega
  | siteCfg i => exact (hsite i.num ((cfg.hasSite_iff i).mp hp)).1
  | dbc i => exact (hsite i.num ((cfg.hasSite_iff i).mp hp)).2
  | duty c => exact (hchan c.num ((cfg.hasChan_iff c).mp hp)).1
  | level c => exact (hchan c.num ((cfg.hasChan_iff c).mp hp)).2
  | phase => exact (hfade hp).1
  | fcnt => exact (hfade hp).2.1
  | fivl => exact (hfade hp).2.2

end Sys2Proof.Machine
end

section
/-! The obligations on the register map of 10_state.md. -/

namespace Sys2Proof.Machine

/-- Settles O52: the number names no register, and both accesses are refused before they look at anything else. -/
theorem unmappedRegisterFaults : Obligations.UnmappedRegisterFaults := by
  intro s n x _ hfixed hsite hchan hfade
  have hnone : regAt s.cfg n = none := regAt_unmapped hfixed hsite hchan hfade
  rw [← s.raise_badRegister]
  exact ⟨execRd_unmapped hnone, execWr_unmapped x hnone⟩

end Sys2Proof.Machine
end

section
/-! SUPPORT. What a RD that answers OK says of its register, and what the response of an operation leaves readable
(20_memory.md R64). -/

namespace Sys2Proof.Machine

/-- No register shows the response: what any RD returns is as before the operation completed. -/
@[simp] theorem State.regValue_complete (s : State) (v : Word) (r : Reg) :
    (s.complete v).regValue r = s.regValue r := by
  cases r <;> rfl

/-- A RD that answers OK has read a present register: a refused one answers FAULT (R150, R57). -/
theorem execRd_ok {s t : State} {n : Nat} {x : Word} (h : execRd n s = .next t) (hx : t.resp = some (.ok x)) :
    ∃ r, n = r.num ∧ r.present s.cfg = true ∧ s.regValue r = x ∧ t = s.complete x := by
  obtain ⟨-, rfl⟩ | ⟨r, hn, hp, rfl⟩ := execRd_cases h
  · simp at hx
  · have hval : s.regValue r = x := by simpa using hx
    exact ⟨r, hn, hp, hval, by rw [hval]⟩

/-- Reading a present register again after an operation completed returns the value it had before (R64). -/
theorem execRd_complete {s : State} {r : Reg} (v : Word) (hp : r.present s.cfg = true) :
    execRd r.num (s.complete v) = .next ((s.complete v).complete (s.regValue r)) := by
  have hread : execRd r.num (s.complete v) = .next ((s.complete v).complete ((s.complete v).regValue r)) :=
    execRd_present (by simpa using hp)
  rwa [s.regValue_complete] at hread

end Sys2Proof.Machine
end

section
/-! The obligation on RD of 20_memory.md. -/

namespace Sys2Proof.Machine

/-- Settles O51: an RD that answers OK only completes with its register's value, and no register shows the response,
so the second RD finds the same value. -/
theorem rdHasNoSideEffect : Obligations.RdHasNoSideEffect := by
  intro s t u n x hfirst hok hsecond
  obtain ⟨r, rfl, hp, hval, rfl⟩ := execRd_ok hfirst hok
  have hagain : execRd r.num (s.complete x) = .next u := hsecond
  rw [execRd_complete x hp, hval] at hagain
  cases hagain
  exact ⟨rfl, rfl⟩

end Sys2Proof.Machine
end

section
/-! SUPPORT. The reserved bits of an operation word as a mask (30_encoding.md R77 to R82), and the words the decoder
refuses (R84, R85). -/

namespace Sys2Proof

/-- A word is 0 exactly when each of its fields is. -/
theorem eq_zero_iff_fields (w : OpWord) :
    w = 0#32 ↔ opField w = 0#4 ∧ idxField w = 0#4 ∧ regField w = 0#8 ∧ immField w = 0#16 := by
  constructor
  · rintro rfl
    decide
  · rintro ⟨hop, hidx, hreg, himm⟩
    apply BitVec.eq_of_toNat_eq
    rw [toNat_of_fields, hop, hidx, hreg, himm]
    rfl

/-- The bits a mask selects are 0 exactly when, field by field, the bits its fields select are. -/
theorem and_eq_zero_iff_fields (w m : OpWord) :
    w &&& m = 0#32 ↔ opField w &&& opField m = 0#4 ∧ idxField w &&& idxField m = 0#4 ∧
      regField w &&& regField m = 0#8 ∧ immField w &&& immField m = 0#16 := by
  simp only [eq_zero_iff_fields, opField, idxField, regField, immField, BitVec.extractLsb'_and]

/-- The same for a mask that leaves OP out and is known by its fields. -/
theorem and_mask_eq_zero_iff (w m : OpWord) (idx : BitVec 4) (reg : BitVec 8) (imm : BitVec 16)
    (hop : opField m = 0#4) (hidx : idxField m = idx) (hreg : regField m = reg) (himm : immField m = imm) :
    w &&& m = 0#32 ↔ idxField w &&& idx = 0#4 ∧ regField w &&& reg = 0#8 ∧ immField w &&& imm = 0#16 := by
  simp [and_eq_zero_iff_fields, hop, hidx, hreg, himm]

/-! A field the mask selects whole. -/

theorem and_full_idx (v : BitVec 4) : v &&& 0xF#4 = v := BitVec.and_allOnes

theorem and_full_reg (v : BitVec 8) : v &&& 0xFF#8 = v := BitVec.and_allOnes

theorem and_full_imm (v : BitVec 16) : v &&& 0xFFFF#16 = v := BitVec.and_allOnes

/-- Bits 15:1, the reserved ones of PIN's IMM (R79). -/
theorem and_high_imm_eq_zero_iff (v : BitVec 16) : v &&& 0xFFFE#16 = 0#16 ↔ v.extractLsb' 1 15 = 0#15 := by
  constructor
  · intro h
    calc v.extractLsb' 1 15
        = v.extractLsb' 1 15 &&& (0xFFFE#16).extractLsb' 1 15 := BitVec.and_allOnes.symm
      _ = (v &&& 0xFFFE#16).extractLsb' 1 15 := BitVec.extractLsb'_and.symm
      _ = 0#15 := by rw [h]; rfl
  · intro h
    have hhigh : v.toNat / 2 % 2 ^ 15 = 0 := by
      simpa [Nat.shiftRight_eq_div_pow] using congrArg BitVec.toNat h
    have hcases : v = 0#16 ∨ v = 1#16 := by bv_omega
    rcases hcases with rfl | rfl <;> rfl

/-! The five masks of R77 to R82, in the terms of the decoder's own checks. -/

theorem timerReserved_eq_zero_iff (w : OpWord) :
    w &&& 0x0FFFFFFF#32 = 0#32 ↔ idxField w = 0#4 ∧ regField w = 0#8 ∧ immField w = 0#16 := by
  rw [and_mask_eq_zero_iff w _ 0xF#4 0xFF#8 0xFFFF#16 rfl rfl rfl rfl, and_full_idx, and_full_reg, and_full_imm]

theorem pinReserved_eq_zero_iff (w : OpWord) :
    w &&& 0x00FFFFFE#32 = 0#32 ↔ regField w = 0#8 ∧ (immField w).extractLsb' 1 15 = 0#15 := by
  rw [and_mask_eq_zero_iff w _ 0x0#4 0xFF#8 0xFFFE#16 rfl rfl rfl rfl]
  simp [and_full_reg, and_high_imm_eq_zero_iff]

theorem svcReserved_eq_zero_iff (w : OpWord) :
    w &&& 0x00FFFFFF#32 = 0#32 ↔ regField w = 0#8 ∧ immField w = 0#16 := by
  rw [and_mask_eq_zero_iff w _ 0x0#4 0xFF#8 0xFFFF#16 rfl rfl rfl rfl]
  simp [and_full_reg, and_full_imm]

theorem rdReserved_eq_zero_iff (w : OpWord) :
    w &&& 0x0F00FFFF#32 = 0#32 ↔ idxField w = 0#4 ∧ immField w = 0#16 := by
  rw [and_mask_eq_zero_iff w _ 0xF#4 0x00#8 0xFFFF#16 rfl rfl rfl rfl]
  simp [and_full_idx, and_full_imm]

theorem wrReserved_eq_zero_iff (w : OpWord) : w &&& 0x0F000000#32 = 0#32 ↔ idxField w = 0#4 := by
  rw [and_mask_eq_zero_iff w _ 0xF#4 0x00#8 0x0000#16 rfl rfl rfl rfl]
  simp [and_full_idx]

/-- R84: an OP outside 0x1 to 0x6 is refused whatever the other fields hold. -/
theorem decode_of_reservedOp {w : OpWord} (h : w.toNat / 2 ^ 28 = 0 ∨ 7 ≤ w.toNat / 2 ^ 28) :
    decode w = .error .reservedOp := by
  rw [← opField_toNat] at h
  have hne : ∀ op : BitVec 4, 1 ≤ op.toNat → op.toNat ≤ 6 → opField w ≠ op := by
    rintro _ h1 h6 rfl
    omega
  simp [decode, hne]

/-! R85: a word of a defined OP is refused exactly when a reserved bit of its row is set. -/

section
variable {w : OpWord}

theorem decode_tick_reservedBits_iff (hop : opField w = 0x1#4) :
    decode w = .error .reservedBits ↔ w &&& 0x0FFFFFFF#32 ≠ 0#32 := by
  simp [decode, hop, whenClear_eq_error, timerReserved_eq_zero_iff]

theorem decode_ftick_reservedBits_iff (hop : opField w = 0x2#4) :
    decode w = .error .reservedBits ↔ w &&& 0x0FFFFFFF#32 ≠ 0#32 := by
  simp [decode, hop, whenClear_eq_error, timerReserved_eq_zero_iff]

theorem decode_pin_reservedBits_iff (hop : opField w = 0x3#4) :
    decode w = .error .reservedBits ↔ w &&& 0x00FFFFFE#32 ≠ 0#32 := by
  simp [decode, hop, whenClear_eq_error, pinReserved_eq_zero_iff]

theorem decode_svc_reservedBits_iff (hop : opField w = 0x4#4) :
    decode w = .error .reservedBits ↔ w &&& 0x00FFFFFF#32 ≠ 0#32 := by
  simp [decode, hop, whenClear_eq_error, svcReserved_eq_zero_iff]

theorem decode_rd_reservedBits_iff (hop : opField w = 0x5#4) :
    decode w = .error .reservedBits ↔ w &&& 0x0F00FFFF#32 ≠ 0#32 := by
  simp [decode, hop, whenClear_eq_error, rdReserved_eq_zero_iff]

theorem decode_wr_reservedBits_iff (hop : opField w = 0x6#4) :
    decode w = .error .reservedBits ↔ w &&& 0x0F000000#32 ≠ 0#32 := by
  simp [decode, hop, whenClear_eq_error, wrReserved_eq_zero_iff]

end

end Sys2Proof

namespace Sys2Proof.Machine

/-- Fault entry of R165 for a word the decoder refuses, written out: ILLEGAL_OP is code 1, bit 1 of ERR. -/
theorem runWord_illegal {w : OpWord} {e : DecodeError} (h : decode w = .error e) (s : State) :
    runWord w s = .next { s with err := s.err ||| 0x0002#16, resp := some (.fault .illegalOp) } :=
  runWord_of_error h s

end Sys2Proof.Machine
end

section
/-! The obligations on the illegal words of 30_encoding.md. -/

namespace Sys2Proof.Machine

/-- Settles O10: in each of the six rows a reserved bit makes the decoder refuse the word; 0x30000002 is a PIN with
bit 1 set. -/
theorem reservedBitRaisesIllegalOp : Obligations.ReservedBitRaisesIllegalOp := by
  constructor
  · rintro s w (⟨hop, hset⟩ | ⟨hop, hset⟩ | ⟨hop, hset⟩ | ⟨hop, hset⟩ | ⟨hop, hset⟩ | ⟨hop, hset⟩)
    · exact runWord_illegal ((decode_tick_reservedBits_iff hop).mpr hset) s
    · exact runWord_illegal ((decode_ftick_reservedBits_iff hop).mpr hset) s
    · exact runWord_illegal ((decode_pin_reservedBits_iff hop).mpr hset) s
    · exact runWord_illegal ((decode_svc_reservedBits_iff hop).mpr hset) s
    · exact runWord_illegal ((decode_rd_reservedBits_iff hop).mpr hset) s
    · exact runWord_illegal ((decode_wr_reservedBits_iff hop).mpr hset) s
  · exact runWord_illegal ((decode_pin_reservedBits_iff (by decide)).mpr (by decide))

/-- Settles O9: the decoder refuses every reserved OP, the one of the all-zero word among them. -/
theorem reservedOpcodeRaisesIllegalOp : Obligations.ReservedOpcodeRaisesIllegalOp :=
  ⟨fun s _ hop => runWord_illegal (decode_of_reservedOp hop) s, decode_of_reservedOp (.inl rfl)⟩

end Sys2Proof.Machine
end

section
/-! SUPPORT. The state a TICK leaves, read element by element, and a run of TICKs back to back (42_waveform.md R118 to
R121). -/

namespace Sys2Proof.Machine

/-- The state after a TICK. -/
def State.ticked (s : State) : State := s.after (exec .tick s)

theorem exec_tick (s : State) : exec .tick s = .next s.ticked := rfl

@[simp] theorem State.ticked_cfg (s : State) : s.ticked.cfg = s.cfg := rfl

@[simp] theorem State.ticked_cnt (s : State) : s.ticked.cnt = BitVec.ofNat 16 s.nextCount := rfl

@[simp] theorem State.ticked_out (s : State) (c : Chan) : s.ticked.out c = s.outAfterTick s.nextCount c :=
  setOuts_out _ _ c

theorem State.ticked_cnt_toNat {s : State} (h : s.cfg.wellFormed = true) : s.ticked.cnt.toNat = s.nextCount :=
  State.nextCount_stored h

/-- The overflow event of a channel (R119). -/
theorem State.ticked_out_of_overflow {s : State} {c : Chan} (hc : s.cfg.hasChan c = true) (hn : s.nextCount = 0) :
    s.ticked.out c = decide (s.duty c ≠ 0) := by
  have hzero : (s.duty c).toNat = 0 ↔ s.duty c = 0 := BitVec.toNat_inj (y := 0#16)
  rw [s.ticked_out, s.outAfterTick_present _ hc, hn, outAfter_zero]
  simp only [ne_eq, hzero]

/-- A compare match of a channel (R121). -/
theorem State.ticked_out_of_match {s : State} {c : Chan} (hc : s.cfg.hasChan c = true) (hn : s.nextCount ≠ 0)
    (hm : cmpMatch s.cfg.cmpMode s.nextCount (s.duty c).toNat = true) : s.ticked.out c = false := by
  rw [s.ticked_out, s.outAfterTick_present _ hc, outAfter_match _ hn hm]

/-- No event of a channel (R121). -/
theorem State.ticked_out_of_no_match {s : State} {c : Chan} (hc : s.cfg.hasChan c = true) (hn : s.nextCount ≠ 0)
    (hm : cmpMatch s.cfg.cmpMode s.nextCount (s.duty c).toNat = false) : s.ticked.out c = s.out c := by
  rw [s.ticked_out, s.outAfterTick_present _ hc, outAfter_hold _ hn hm]

/-- Only the overflow sets OUT. -/
theorem State.ticked_out_low {s : State} {c : Chan} (hn : s.nextCount ≠ 0) (hlow : s.out c = false) :
    s.ticked.out c = false := by
  cases hc : s.cfg.hasChan c with
  | true => rw [s.ticked_out, s.outAfterTick_present _ hc, hlow, outAfter_low hn]
  | false => rw [s.ticked_out, s.outAfterTick_absent _ hc, hlow]

theorem decode_encode_tick : decode (encode .tick) = .ok .tick := by decide

@[simp] theorem State.afterWord_tick (s : State) : s.afterWord (encode .tick) = s.ticked := by
  rw [State.afterWord, runWord_of_ok decode_encode_tick, State.ticked]

@[simp] theorem State.afterTicks_zero (s : State) : s.afterTicks 0 = s := rfl

@[simp] theorem State.afterTicks_succ (s : State) (k : Nat) : s.afterTicks (k + 1) = s.ticked.afterTicks k := by
  rw [State.afterTicks, List.replicate_succ, State.afterWords, State.afterWord_tick, State.afterTicks]

/-- CNT after `k` TICKs, from a count that is below PERIOD (R120). -/
theorem State.afterTicks_cnt {s : State} (hwf : s.cfg.wellFormed = true) (hlt : s.cnt.toNat < s.cfg.period) (k : Nat) :
    (s.afterTicks k).cnt.toNat = (s.cnt.toNat + k) % s.cfg.period := by
  induction k generalizing s with
  | zero => exact (Nat.mod_eq_of_lt hlt).symm
  | succ k ih =>
    have hcnt : s.ticked.cnt.toNat = s.nextCount := State.ticked_cnt_toNat hwf
    have hnext : s.ticked.cnt.toNat < s.ticked.cfg.period := hcnt.trans_lt (State.nextCount_lt hwf)
    calc (s.afterTicks (k + 1)).cnt.toNat
        = (s.nextCount + k) % s.cfg.period := by
          rw [s.afterTicks_succ, ih (s := s.ticked) hwf hnext, hcnt, s.ticked_cfg]
      _ = (s.cnt.toNat + (k + 1)) % s.cfg.period := by
          rw [State.nextCount, Nat.mod_add_mod, Nat.add_assoc, Nat.add_comm 1 k]

/-- An output that is LOW stays LOW up to the end of the period. -/
theorem State.afterTicks_out_low {s : State} {c : Chan} {k : Nat} (hwf : s.cfg.wellFormed = true)
    (hlow : s.out c = false) (hk : s.cnt.toNat + k < s.cfg.period) : (s.afterTicks k).out c = false := by
  induction k generalizing s with
  | zero => exact hlow
  | succ k ih =>
    have hnext : s.nextCount = s.cnt.toNat + 1 := State.nextCount_of_lt (by omega)
    have hcnt : s.ticked.cnt.toNat = s.cnt.toNat + 1 := (State.ticked_cnt_toNat hwf).trans hnext
    rw [s.afterTicks_succ]
    exact ih hwf (State.ticked_out_low (by omega) hlow) (by rw [hcnt, s.ticked_cfg]; omega)

end Sys2Proof.Machine
end

section
/-! The obligations on the waveform of 42_waveform.md. -/

namespace Sys2Proof.Machine

/-- Settles O24: a channel with D = 0 is LOW at the overflow, and only the next overflow could raise it. -/
theorem overflowDrivesOutputs : Obligations.OverflowDrivesOutputs := by
  intro s hwf (hover : s.nextCount = 0)
  have hcnt : s.ticked.cnt = 0 := by rw [s.ticked_cnt, hover]; rfl
  refine ⟨s.ticked, exec_tick s, hcnt, fun c hc => ?_⟩
  have hout : s.ticked.out c = decide (s.duty c ≠ 0) := State.ticked_out_of_overflow hc hover
  constructor
  · intro hd
    rw [hout, decide_eq_true hd]
  · intro hd k hk
    have hlow : s.ticked.out c = false := by rw [hout, hd]; rfl
    exact State.afterTicks_out_low hwf hlow (by rw [hcnt, s.ticked_cfg]; simpa using hk)

/-- Settles O25: the four clauses are the match and its absence in each mode, at the count the TICK stores. -/
theorem compareMatchDrivesLow : Obligations.CompareMatchDrivesLow := by
  intro s hwf (hn : s.nextCount ≠ 0)
  refine ⟨s.ticked, exec_tick s, fun c hc => ?_⟩
  rw [State.ticked_cnt_toNat hwf]
  refine ⟨fun hmode h => ?_, fun hmode h => ?_, fun hmode h => ?_, fun hmode h => ?_⟩
  · exact State.ticked_out_of_match hc hn (by simpa [hmode, cmpMatch] using h)
  · exact State.ticked_out_of_match hc hn (by simpa [hmode, cmpMatch] using h)
  · exact State.ticked_out_of_no_match hc hn (by simpa [hmode, cmpMatch] using h)
  · exact State.ticked_out_of_no_match hc hn (by simpa [hmode, cmpMatch] using h)

/-- Settles O26: the closed form of CNT after `k` TICKs, read at `k = PERIOD` and below it. -/
theorem counterCountsModuloPeriod : Obligations.CounterCountsModuloPeriod := by
  intro s hinv
  have hcount := State.afterTicks_cnt hinv.config hinv.cnt_lt_period
  refine ⟨hcount, ?_, fun hzero k hpos hk hback => ?_⟩
  · apply BitVec.eq_of_toNat_eq
    rw [hcount, Nat.add_mod_right, Nat.mod_eq_of_lt hinv.cnt_lt_period]
  · have hk0 : 0 = k := by simpa [hzero, hback, Nat.mod_eq_of_lt hk] using hcount k
    omega

end Sys2Proof.Machine
end

section
/-! SUPPORT. The answers of a WR and of an SVC for each register and each check of 44_host_access.md R152, and the
frame of the accepted writes (R155 to R157). -/

namespace Sys2Proof.Machine

/-- A refused WR is the fault entry of R165, written out. -/
theorem exec_wr_refused {s : State} {r : Reg} {x : Nat} {c : FaultCode} (h : r.present s.cfg = true)
    (hf : writeFault s.cfg r x = some c) :
    exec (.wr r.num x) s = .next { s with err := s.err ||| c.errBit, resp := some (.fault c) } :=
  execWr_refused h hf

/-! The refusals of the duty register and the level index (R156, R157). -/

section
variable {cfg : Config} {c : Chan}

theorem writeFault_duty_conflict (x : Nat) (hc : cfg.isDutyChan c = false) :
    writeFault cfg (.duty c) x = some .writeConflict := by
  simp [writeFault, Reg.readOnly, hc]

theorem writeFault_duty_outOfRange {x : Nat} (hc : cfg.isDutyChan c = true) (h : cfg.period < x) :
    writeFault cfg (.duty c) x = some .outOfRangeDuty := by
  simp [writeFault, Reg.readOnly, hc, h]

theorem writeFault_level_conflict (x : Nat) (hc : cfg.isLevelChan c = false) :
    writeFault cfg (.level c) x = some .writeConflict := by
  simp [writeFault, Reg.readOnly, hc]

theorem writeFault_level_outOfRange {x : Nat} (hc : cfg.isLevelChan c = true) (h : 10 < x) :
    writeFault cfg (.level c) x = some .outOfRangeLevel := by
  simp [writeFault, Reg.readOnly, hc, h]

end

/-! An SVC that is not enabled (60_exceptions.md R170, 41_edge.md R104). -/

theorem State.svcEnabled_of_ie_false {s : State} {i : Site} (h : s.ie i = false) : s.svcEnabled i = false := by
  simp [State.svcEnabled, h]

theorem exec_svc_not_enabled {s : State} {i : Site} (hi : s.cfg.hasSite i = true) (he : s.svcEnabled i = false) :
    exec (.svc i.num) s = .next (s.raise .svcNotEnabled) := by
  obtain ⟨sc, hsc⟩ := Config.site?_of_hasSite hi
  simp [exec, execSvc, siteAt_num s.cfg i sc hsc, he]

/-! The writer of a level index and the duty value it selects, element by element (10_state.md R25). -/

section
variable (s : State) (c d : Chan) (l : Nat)

@[simp] theorem State.setLevelAlias_level :
    (s.setLevelAlias c l).level d = if d = c then BitVec.ofNat 16 l else s.level d := by
  simp [State.setLevelAlias]

@[simp] theorem State.setLevelAlias_duty :
    (s.setLevelAlias c l).duty d = if d = c then BitVec.ofNat 16 (s.cfg.levelDuty l) else s.duty d := by
  simp [State.setLevelAlias]

@[simp] theorem State.setLevelAlias_out : (s.setLevelAlias c l).out d = s.out d := by
  simp [State.setLevelAlias]

end

/-! What an accepted WR leaves as it was. -/

section
variable (s : State) (x : Nat)

@[simp] theorem State.writeReg_out (r : Reg) (c : Chan) : (s.writeReg r x).out c = s.out c := by
  cases r <;> simp [State.writeReg]

@[simp] theorem State.writeReg_pend (r : Reg) (i : Site) : (s.writeReg r x).pend i = s.pend i := by
  cases r <;> simp [State.writeReg, State.setLevelAlias]

@[simp] theorem State.writeReg_pinl (r : Reg) (i : Site) : (s.writeReg r x).pinl i = s.pinl i := by
  cases r <;> simp [State.writeReg, State.setLevelAlias]

@[simp] theorem State.writeReg_dbc (r : Reg) (i : Site) : (s.writeReg r x).dbc i = s.dbc i := by
  cases r <;> simp [State.writeReg, State.setLevelAlias]

@[simp] theorem State.writeReg_duty_level (c d : Chan) : (s.writeReg (.duty c) x).level d = s.level d :=
  setDuty_level s c _ d

/-- No WR writes CNT, ERR or the fade sequencer, or the model's own fields but the response. -/
theorem State.writeReg_frame (r : Reg) :
    s.SameFade ((s.writeReg r x).complete 0) ∧ s.SameEnv ((s.writeReg r x).complete 0) ∧
      ((s.writeReg r x).complete 0).cnt = s.cnt ∧ ((s.writeReg r x).complete 0).err = s.err ∧
      ((s.writeReg r x).complete 0).resp = some (.ok 0) := by
  cases r <;> exact ⟨⟨rfl, rfl, rfl⟩, ⟨rfl, rfl⟩, rfl, rfl, rfl⟩

/-- A WR of SITECFG writes no channel. -/
theorem State.writeReg_siteCfg_sameChan (i : Site) (c : Chan) :
    s.SameChan ((s.writeReg (.siteCfg i) x).complete 0) c := ⟨rfl, rfl, rfl⟩

/-- A WR of SITECFG writes no other site. -/
theorem State.writeReg_siteCfg_sameSite {i j : Site} (h : j ≠ i) :
    s.SameSite ((s.writeReg (.siteCfg i) x).complete 0) j := by
  simp [State.SameSite, State.writeReg, h]

/-- A WR of a duty register writes no site. -/
theorem State.writeReg_duty_sameSite (c : Chan) (i : Site) :
    s.SameSite ((s.writeReg (.duty c) x).complete 0) i := ⟨rfl, rfl, rfl, rfl, rfl⟩

/-- A WR of a duty register writes no other channel. -/
theorem State.writeReg_duty_sameChan {c d : Chan} (h : d ≠ c) :
    s.SameChan ((s.writeReg (.duty c) x).complete 0) d := by
  simp [State.SameChan, State.writeReg, h]

/-- A WR of a level index writes no site. -/
theorem State.writeReg_level_sameSite (c : Chan) (i : Site) :
    s.SameSite ((s.writeReg (.level c) x).complete 0) i := ⟨rfl, rfl, rfl, rfl, rfl⟩

/-- A WR of a level index writes no other channel. -/
theorem State.writeReg_level_sameChan {c d : Chan} (h : d ≠ c) :
    s.SameChan ((s.writeReg (.level c) x).complete 0) d := by
  simp [State.SameChan, State.writeReg, h]

end

/-! What an accepted WR writes. -/

/-- The IE and ESEL an accepted WR of SITECFG leaves, from bits 0 and 1 of the value (R155). -/
theorem State.writeReg_siteCfg_bits (s : State) (i : Site) {x : Nat} (hx : x < 4) :
    (s.writeReg (.siteCfg i) x).ie i = decide (x % 2 = 1) ∧
      (s.writeReg (.siteCfg i) x).esel i = if x / 2 = 1 then .falling else .rising := by
  obtain ⟨hie, hesel⟩ := testBit_low hx
  simp [State.writeReg, hie, hesel]

/-- The value of an accepted WR of D is stored whole: PERIOD fits a register (R156). -/
theorem State.writeReg_duty_toNat {s : State} (c : Chan) {x : Nat} (hwf : s.cfg.wellFormed = true)
    (hx : x ≤ s.cfg.period) : ((s.writeReg (.duty c) x).duty c).toNat = x := by
  obtain ⟨-, hperiod, -⟩ := Config.wellFormed_sizes hwf
  have hfits : x < 2 ^ 16 := by omega
  simpa [State.writeReg] using hfits

/-- The index of an accepted WR of L is stored whole (R157). -/
theorem State.writeReg_level_toNat (s : State) (c : Chan) {x : Nat} (hx : x ≤ 10) :
    ((s.writeReg (.level c) x).level c).toNat = x := by
  have hfits : x < 2 ^ 16 := by omega
  simpa [State.writeReg] using hfits

/-- An accepted WR of L stores the table's entry in D, whole: no entry is above PERIOD (R157, 00_scope.md R10). -/
theorem State.writeReg_level_tableEntry {s : State} (c : Chan) {x : Nat} (hwf : s.cfg.wellFormed = true)
    (hx : x ≤ 10) :
    s.cfg.levelTable[x]? = some ((s.writeReg (.level c) x).duty c).toNat := by
  obtain ⟨-, hperiod, -⟩ := Config.wellFormed_sizes hwf
  obtain ⟨hentry, hle⟩ := Config.levelTable_get hwf hx
  have hfits : s.cfg.levelDuty x < 65536 := by omega
  simp [State.writeReg, hentry, Nat.mod_eq_of_lt hfits]

end Sys2Proof.Machine
end

section
/-! The obligations on WR of 44_host_access.md. -/

namespace Sys2Proof.Machine

/-- Settles O53: a read-only register is refused by the first check after its presence. -/
theorem readOnlyRegisterFaults : Obligations.ReadOnlyRegisterFaults := by
  intro s x _
  have refused : ∀ r : Reg, r.present s.cfg = true → r.readOnly = true → exec (.wr r.num x) s =
      .next { s with err := s.err ||| 0x0020#16, resp := some (.fault .readOnly) } :=
    fun r hp hro => exec_wr_refused hp (writeFault_readOnly x hro)
  exact ⟨refused .period rfl rfl, refused .cnt rfl rfl, refused .out rfl rfl, refused .err rfl rfl,
    refused .pend rfl rfl, refused .pinl rfl rfl, fun i hi => refused (.dbc i) hi rfl,
    fun hfade => ⟨refused .phase hfade rfl, refused .fcnt hfade rfl, refused .fivl hfade rfl⟩⟩

/-- Settles O54: with IE cleared the site's SVC is not enabled, and its refusal does not touch PEND. -/
theorem wrSiteConfig : Obligations.WrSiteConfig := by
  intro s i x hi
  constructor
  · intro hx
    obtain ⟨hie, hesel⟩ := s.writeReg_siteCfg_bits i hx
    have hpend : (s.writeReg (.siteCfg i) x).pend i = s.pend i := s.writeReg_pend x _ i
    obtain ⟨hfade, henv, hcnt, herr, hresp⟩ := s.writeReg_frame x (.siteCfg i)
    refine ⟨_, execWr_accepted (r := .siteCfg i) hi (writeFault_siteCfg hx), hie, hesel, hpend,
      s.writeReg_pinl x _ i, s.writeReg_dbc x _ i, fun j hj => s.writeReg_siteCfg_sameSite x hj,
      s.writeReg_siteCfg_sameChan x i, hfade, henv, hcnt, herr, hresp, fun heven => ?_⟩
    have hoff : (s.writeReg (.siteCfg i) x).ie i = false := by rw [hie, heven]; rfl
    have hsite : (s.writeReg (.siteCfg i) x).cfg.hasSite i = true := by rwa [s.writeReg_cfg]
    exact ⟨_, exec_svc_not_enabled hsite (State.svcEnabled_of_ie_false hoff), rfl, hpend⟩
  · intro hx
    exact exec_wr_refused (r := .siteCfg i) hi (writeFault_badValue hx)

/-- Settles O55: one clause for each answer of the checks of R152 on a duty register. -/
theorem wrDuty : Obligations.WrDuty := by
  intro s c x hwf hc
  refine ⟨fun hduty hx => ?_, fun hduty hx => ?_, fun hduty => ?_⟩
  · exact ⟨_, execWr_accepted (r := .duty c) hc (writeFault_duty hduty hx), State.writeReg_duty_toNat c hwf hx,
      s.writeReg_out x _ c, s.writeReg_duty_level x c c, fun d hd => s.writeReg_duty_sameChan x hd,
      s.writeReg_duty_sameSite x c, s.writeReg_frame x (.duty c)⟩
  · exact exec_wr_refused (r := .duty c) hc (writeFault_duty_outOfRange hduty hx)
  · exact exec_wr_refused (r := .duty c) hc (writeFault_duty_conflict x hduty)

/-- Settles O56: one clause for each answer of the checks of R152 on a level index. -/
theorem wrLevel : Obligations.WrLevel := by
  intro s c x hwf hc
  refine ⟨fun hlevel hx => ?_, fun hlevel hx => ?_, fun hlevel => ?_⟩
  · exact ⟨_, execWr_accepted (r := .level c) hc (writeFault_level hlevel hx), s.writeReg_level_toNat c hx,
      State.writeReg_level_tableEntry c hwf hx, s.writeReg_out x _ c, fun d hd => s.writeReg_level_sameChan x hd,
      s.writeReg_level_sameSite x c, s.writeReg_frame x (.level c)⟩
  · exact exec_wr_refused (r := .level c) hc (writeFault_level_outOfRange hlevel hx)
  · exact exec_wr_refused (r := .level c) hc (writeFault_level_conflict x hlevel)

end Sys2Proof.Machine
end

section
/-! SUPPORT. How an operation ends: with the fault entry (60_exceptions.md R165) or with the response OK; and the bit of
ERR and the response word of a fault code. -/

namespace Sys2Proof.Machine

/-- An operation that does not take the fault entry completes. -/
theorem exec_raise_or_complete {s t : State} {i : Instr} (h : exec i s = .next t) :
    (∃ c, t = s.raise c) ∨ ∃ u x, t = State.complete u x := by
  cases i with
  | tick =>
    cases h
    exact .inr ⟨_, _, rfl⟩
  | ftick =>
    obtain ⟨-, rfl⟩ | ⟨p, -, -, rfl⟩ | ⟨p, -, -, rfl⟩ := execFtick_cases h
    · exact .inr ⟨_, _, rfl⟩
    · exact .inr ⟨_, _, rfl⟩
    · exact .inr ⟨_, _, rfl⟩
  | pin n v =>
    obtain ⟨-, rfl⟩ | ⟨i, sc, -, -, -, rfl⟩ | ⟨i, sc, -, -, -, rfl⟩ := execPin_cases h
    · exact .inl ⟨_, rfl⟩
    · exact .inr ⟨_, _, rfl⟩
    · exact .inr ⟨_, _, rfl⟩
  | svc n =>
    obtain ⟨-, rfl⟩ | ⟨i, sc, -, -, -, rfl⟩ | ⟨i, sc, -, -, -, rfl⟩ := execSvc_cases h
    · exact .inl ⟨_, rfl⟩
    · exact .inr ⟨_, _, rfl⟩
    · exact .inl ⟨_, rfl⟩
  | rd n =>
    obtain ⟨-, rfl⟩ | ⟨r, -, -, rfl⟩ := execRd_cases h
    · exact .inl ⟨_, rfl⟩
    · exact .inr ⟨_, _, rfl⟩
  | wr n x =>
    obtain ⟨-, rfl⟩ | ⟨r, c, -, -, -, rfl⟩ | ⟨r, -, -, -, rfl⟩ := execWr_cases h
    · exact .inl ⟨_, rfl⟩
    · exact .inl ⟨_, rfl⟩
    · exact .inr ⟨_, _, rfl⟩

/-- A word that answers FAULT(c) has taken the fault entry of c from the state before it: a completed operation
answers OK. -/
theorem runWord_eq_raise {s t : State} {w : OpWord} {c : FaultCode} (h : runWord w s = .next t)
    (hresp : t.resp = some (.fault c)) : t = s.raise c := by
  have hend : (∃ d, t = s.raise d) ∨ ∃ u x, t = State.complete u x := by
    obtain ⟨e, -, rfl⟩ | ⟨i, -, hexec⟩ := runWord_cases h
    · exact .inl ⟨_, rfl⟩
    · exact exec_raise_or_complete hexec
  obtain ⟨d, rfl⟩ | ⟨u, x, rfl⟩ := hend
  · have hcode : d = c := by simpa using hresp
    rw [hcode]
  · simp at hresp

theorem FaultCode.errBit_getLsbD (c : FaultCode) {k : Nat} (hk : k < 16) : c.errBit.getLsbD k = (k == c.code) := by
  rw [FaultCode.errBit, BitVec.getLsbD_ofNat, Nat.testBit_two_pow]
  simp [hk, eq_comm, Bool.beq_eq_decide_eq]

/-- The response word of a fault fits 32 bits, so it is the number of R89. -/
theorem Response.word_fault_toNat (c : FaultCode) : (Response.fault c).word.toNat = 0x80000000 + c.code * 0x10000 := by
  cases c <;> rfl

end Sys2Proof.Machine
end

section
/-! The obligation on the fault entry of 60_exceptions.md. -/

namespace Sys2Proof.Machine

/-- Settles O21: only the fault entry answers FAULT(c), and it is one write to ERR and one to the response. -/
theorem faultEntryChangesOnlyErr : Obligations.FaultEntryChangesOnlyErr := by
  intro s t w c hrun hresp
  obtain rfl : t = s.raise c := runWord_eq_raise hrun hresp
  refine ⟨rfl, fun k hk => ?_, _, rfl, Response.word_fault_toNat c⟩
  rw [State.raise_err, BitVec.getLsbD_or, c.errBit_getLsbD hk]

end Sys2Proof.Machine
end

section
/-! SUPPORT. The decoder row by row (30_encoding.md R77 to R87): what each OP accepts, and that a word decodes to an
operation exactly when it is that operation's word. -/

namespace Sys2Proof

/-- What the decoder accepts, row by row: the OP, the reserved bits and the operands (R77 to R82, R87). -/
theorem decode_eq_ok_iff {w : OpWord} {i : Instr} : decode w = .ok i ↔
    (opField w = 0x1#4 ∧ (idxField w = 0#4 ∧ regField w = 0#8 ∧ immField w = 0#16) ∧ i = .tick) ∨
    (opField w = 0x2#4 ∧ (idxField w = 0#4 ∧ regField w = 0#8 ∧ immField w = 0#16) ∧ i = .ftick) ∨
    (opField w = 0x3#4 ∧ (regField w = 0#8 ∧ (immField w).extractLsb' 1 15 = 0#15) ∧
      i = .pin (idxField w).toNat ((immField w).getLsbD 0)) ∨
    (opField w = 0x4#4 ∧ (regField w = 0#8 ∧ immField w = 0#16) ∧ i = .svc (idxField w).toNat) ∨
    (opField w = 0x5#4 ∧ (idxField w = 0#4 ∧ immField w = 0#16) ∧ i = .rd (regField w).toNat) ∨
    (opField w = 0x6#4 ∧ idxField w = 0#4 ∧ i = .wr (regField w).toNat (immField w).toNat) := by
  simp only [decode]
  split_ifs with h1 h2 h3 h4 h5 h6 <;> simp [*, whenClear_eq_ok, and_assoc, eq_comm (b := i)]

/-- The fields of R75 as numbers. -/
structure WordFields where
  op  : Nat
  idx : Nat
  reg : Nat
  imm : Nat

/-- The fields an operation's word is made of (R77 to R82). -/
def Instr.fields : Instr → WordFields
  | .tick => ⟨1, 0, 0, 0⟩
  | .ftick => ⟨2, 0, 0, 0⟩
  | .pin s v => ⟨3, s, 0, v.toNat⟩
  | .svc s => ⟨4, s, 0, 0⟩
  | .rd n => ⟨5, 0, n, 0⟩
  | .wr n x => ⟨6, 0, n, x⟩

theorem Instr.fields_op_lt (i : Instr) : i.fields.op < 16 := by cases i <;> simp [Instr.fields]

/-- The operands of a well-formed operation do not reach another field (R83). -/
theorem Instr.wellFormed_iff_fields (i : Instr) :
    i.wellFormed = true ↔ i.fields.idx < 16 ∧ i.fields.reg < 256 ∧ i.fields.imm < 65536 := by
  cases i with
  | tick | ftick => simp [Instr.wellFormed, Instr.fields]
  | pin s v =>
    have hv := v.toNat_le
    simp only [Instr.wellFormed, Instr.fields, decide_eq_true_eq]
    omega
  | svc s | rd n | wr n x =>
    simp only [Instr.wellFormed, Instr.fields, Bool.and_eq_true, decide_eq_true_eq]
    omega

/-- The encoder puts the fields of an operation side by side. -/
theorem encode_toNat {i : Instr} (h : i.wellFormed = true) : (encode i).toNat =
    i.fields.op * 2 ^ 28 + i.fields.idx * 2 ^ 24 + i.fields.reg * 2 ^ 16 + i.fields.imm := by
  obtain ⟨hidx, hreg, himm⟩ := i.wellFormed_iff_fields.mp h
  cases i with
  | tick | ftick => rfl
  | pin s v | svc s | rd n | wr n x =>
    simp only [Instr.fields] at hidx hreg himm
    simp only [encode, Instr.fields, BitVec.toNat_ofNat]
    omega

/-- The fields of a well-formed operation's word are those of the operation. -/
theorem fields_encode {i : Instr} (h : i.wellFormed = true) :
    opField (encode i) = BitVec.ofNat 4 i.fields.op ∧ idxField (encode i) = BitVec.ofNat 4 i.fields.idx ∧
      regField (encode i) = BitVec.ofNat 8 i.fields.reg ∧ immField (encode i) = BitVec.ofNat 16 i.fields.imm := by
  obtain ⟨hidx, hreg, himm⟩ := i.wellFormed_iff_fields.mp h
  have hop := i.fields_op_lt
  have hnum := encode_toNat h
  refine ⟨?_, ?_, ?_, ?_⟩ <;> apply BitVec.eq_of_toNat_eq <;>
    simp only [opField_toNat, idxField_toNat, regField_toNat, immField_toNat, BitVec.toNat_ofNat, hnum] <;> omega

/-- With bits 15:1 clear, IMM is its level bit (R79). -/
theorem getLsbD_zero_toNat {v : BitVec 16} (h : v.extractLsb' 1 15 = 0#15) : (v.getLsbD 0).toNat = v.toNat := by
  have hcases : v = 0#16 ∨ v = 1#16 := by
    have hhigh : v.toNat / 2 % 2 ^ 15 = 0 := by
      simpa [Nat.shiftRight_eq_div_pow] using congrArg BitVec.toNat h
    bv_omega
  rcases hcases with rfl | rfl <;> rfl

/-- A word that decodes to an operation has that operation's fields. -/
theorem fields_of_decode {w : OpWord} {i : Instr} (h : decode w = .ok i) :
    i.fields = ⟨(opField w).toNat, (idxField w).toNat, (regField w).toNat, (immField w).toNat⟩ := by
  obtain ⟨hop, ⟨hidx, hreg, himm⟩, rfl⟩ | ⟨hop, ⟨hidx, hreg, himm⟩, rfl⟩ | ⟨hop, ⟨hreg, himm⟩, rfl⟩ |
    ⟨hop, ⟨hreg, himm⟩, rfl⟩ | ⟨hop, ⟨hidx, himm⟩, rfl⟩ | ⟨hop, hidx, rfl⟩ := decode_eq_ok_iff.mp h
  · rw [hop, hidx, hreg, himm]; rfl
  · rw [hop, hidx, hreg, himm]; rfl
  · rw [hop, hreg, ← getLsbD_zero_toNat himm]; rfl
  · rw [hop, hreg, himm]; rfl
  · rw [hop, hidx, himm]; rfl
  · rw [hop, hidx]; rfl

/-- A word that decodes to an operation is that operation's word, and its operands fit their fields. -/
theorem encode_of_decode {w : OpWord} {i : Instr} (h : decode w = .ok i) : i.wellFormed = true ∧ encode i = w := by
  have hfields := fields_of_decode h
  have hwf : i.wellFormed = true := by
    rw [i.wellFormed_iff_fields, hfields]
    exact ⟨(idxField w).isLt, (regField w).isLt, (immField w).isLt⟩
  refine ⟨hwf, BitVec.eq_of_toNat_eq ?_⟩
  rw [encode_toNat hwf, hfields, toNat_of_fields w]

/-- The word of a well-formed operation decodes to it. -/
theorem decode_encode {i : Instr} (h : i.wellFormed = true) : decode (encode i) = .ok i := by
  obtain ⟨hidx, hreg, himm⟩ := i.wellFormed_iff_fields.mp h
  obtain ⟨hop', hidx', hreg', himm'⟩ := fields_encode h
  rw [decode_eq_ok_iff, hop', hidx', hreg', himm']
  cases i with
  | tick | ftick => simp [Instr.fields]
  | pin s v => cases v <;> simpa [Instr.fields] using (Nat.mod_eq_of_lt hidx).symm
  | svc s => simpa [Instr.fields] using (Nat.mod_eq_of_lt hidx).symm
  | rd n => simpa [Instr.fields] using (Nat.mod_eq_of_lt hreg).symm
  | wr n x => simpa [Instr.fields] using ⟨(Nat.mod_eq_of_lt hreg).symm, (Nat.mod_eq_of_lt himm).symm⟩

end Sys2Proof
end

section
/-! SUPPORT. The rows of the opcode table against the decoder (30_encoding.md R76 to R87). -/

namespace Sys2Proof

/-- Two words are one exactly when their fields are. -/
theorem eq_iff_fields (w v : OpWord) : w = v ↔ opField w = opField v ∧ idxField w = idxField v ∧
    regField w = regField v ∧ immField w = immField v := by
  refine ⟨by rintro rfl; simp, fun ⟨hop, hidx, hreg, himm⟩ => BitVec.eq_of_toNat_eq ?_⟩
  rw [toNat_of_fields w, toNat_of_fields v, hop, hidx, hreg, himm]

/-- A row whose mask takes OP in and is known by its other fields: every pattern of R77 to R82 is its OP and zeros. -/
theorem OpRow.selects_iff (r : OpRow) (w : OpWord) (idx : BitVec 4) (reg : BitVec 8) (imm : BitVec 16)
    (hop : opField r.mask = 0xF#4) (hidx : idxField r.mask = idx) (hreg : regField r.mask = reg)
    (himm : immField r.mask = imm)
    (hzero : idxField r.pattern = 0#4 ∧ regField r.pattern = 0#8 ∧ immField r.pattern = 0#16) :
    r.selects w = true ↔ opField w = opField r.pattern ∧ idxField w &&& idx = 0#4 ∧ regField w &&& reg = 0#8 ∧
      immField w &&& imm = 0#16 := by
  obtain ⟨hidx0, hreg0, himm0⟩ := hzero
  have and_full_op : opField w &&& 0xF#4 = opField w := BitVec.and_allOnes
  rw [OpRow.selects, beq_iff_eq, eq_iff_fields, hidx0, hreg0, himm0, ← hidx, ← hreg, ← himm, ← and_full_op, ← hop]
  simp only [opField, idxField, regField, immField, BitVec.extractLsb'_and]

/-! What each row of the table asks of a word: its OP, and its reserved bits clear. -/

section
variable {w : OpWord}

theorem tickRow_selects_iff : (Instr.row .tick).selects w = true ↔
    opField w = 0x1#4 ∧ idxField w = 0#4 ∧ regField w = 0#8 ∧ immField w = 0#16 := by
  rw [OpRow.selects_iff _ _ 0xF#4 0xFF#8 0xFFFF#16 rfl rfl rfl rfl ⟨rfl, rfl, rfl⟩, and_full_idx, and_full_reg,
    and_full_imm]
  rfl

theorem ftickRow_selects_iff : (Instr.row .ftick).selects w = true ↔
    opField w = 0x2#4 ∧ idxField w = 0#4 ∧ regField w = 0#8 ∧ immField w = 0#16 := by
  rw [OpRow.selects_iff _ _ 0xF#4 0xFF#8 0xFFFF#16 rfl rfl rfl rfl ⟨rfl, rfl, rfl⟩, and_full_idx, and_full_reg,
    and_full_imm]
  rfl

theorem pinRow_selects_iff : (Instr.row (.pin 0 false)).selects w = true ↔
    opField w = 0x3#4 ∧ regField w = 0#8 ∧ (immField w).extractLsb' 1 15 = 0#15 := by
  rw [OpRow.selects_iff _ _ 0x0#4 0xFF#8 0xFFFE#16 rfl rfl rfl rfl ⟨rfl, rfl, rfl⟩, and_full_reg,
    and_high_imm_eq_zero_iff, BitVec.and_zero, eq_self, true_and]
  rfl

theorem svcRow_selects_iff : (Instr.row (.svc 0)).selects w = true ↔
    opField w = 0x4#4 ∧ regField w = 0#8 ∧ immField w = 0#16 := by
  rw [OpRow.selects_iff _ _ 0x0#4 0xFF#8 0xFFFF#16 rfl rfl rfl rfl ⟨rfl, rfl, rfl⟩, and_full_reg, and_full_imm,
    BitVec.and_zero, eq_self, true_and]
  rfl

theorem rdRow_selects_iff : (Instr.row (.rd 0)).selects w = true ↔
    opField w = 0x5#4 ∧ idxField w = 0#4 ∧ immField w = 0#16 := by
  rw [OpRow.selects_iff _ _ 0xF#4 0x00#8 0xFFFF#16 rfl rfl rfl rfl ⟨rfl, rfl, rfl⟩, and_full_idx, and_full_imm,
    BitVec.and_zero, eq_self, true_and]
  rfl

theorem wrRow_selects_iff : (Instr.row (.wr 0 0)).selects w = true ↔
    opField w = 0x6#4 ∧ idxField w = 0#4 := by
  rw [OpRow.selects_iff _ _ 0xF#4 0x00#8 0x0000#16 rfl rfl rfl rfl ⟨rfl, rfl, rfl⟩, and_full_idx,
    BitVec.and_zero, BitVec.and_zero, eq_self, eq_self, and_true, and_true]
  rfl

end

theorem row_mem_opcodeTable (i : Instr) : i.row ∈ opcodeTable := by
  cases i <;> simp [opcodeTable, Instr.row]

/-- Every row of the table is that of some operation. -/
theorem opcodeTable_cases {r : OpRow} (h : r ∈ opcodeTable) : r = Instr.row .tick ∨ r = Instr.row .ftick ∨
    r = Instr.row (.pin 0 false) ∨ r = Instr.row (.svc 0) ∨ r = Instr.row (.rd 0) ∨ r = Instr.row (.wr 0 0) := by
  simpa [opcodeTable] using h

/-- A word that decodes to an operation matches that operation's row. -/
theorem row_selects_of_decode {w : OpWord} {i : Instr} (h : decode w = .ok i) : i.row.selects w = true := by
  obtain ⟨hop, hclear, rfl⟩ | ⟨hop, hclear, rfl⟩ | ⟨hop, hclear, rfl⟩ | ⟨hop, hclear, rfl⟩ | ⟨hop, hclear, rfl⟩ |
    ⟨hop, hclear, rfl⟩ := decode_eq_ok_iff.mp h
  · exact tickRow_selects_iff.mpr ⟨hop, hclear⟩
  · exact ftickRow_selects_iff.mpr ⟨hop, hclear⟩
  · exact pinRow_selects_iff.mpr ⟨hop, hclear⟩
  · exact svcRow_selects_iff.mpr ⟨hop, hclear⟩
  · exact rdRow_selects_iff.mpr ⟨hop, hclear⟩
  · exact wrRow_selects_iff.mpr ⟨hop, hclear⟩

/-- A word that a row of the table matches decodes to an operation of that row. -/
theorem decode_of_row_selects {w : OpWord} {r : OpRow} (hr : r ∈ opcodeTable) (h : r.selects w = true) :
    ∃ i, decode w = .ok i ∧ i.row = r := by
  simp only [decode_eq_ok_iff]
  obtain rfl | rfl | rfl | rfl | rfl | rfl := opcodeTable_cases hr
  · obtain ⟨hop, hclear⟩ := tickRow_selects_iff.mp h
    exact ⟨_, .inl ⟨hop, hclear, rfl⟩, rfl⟩
  · obtain ⟨hop, hclear⟩ := ftickRow_selects_iff.mp h
    exact ⟨_, .inr (.inl ⟨hop, hclear, rfl⟩), rfl⟩
  · obtain ⟨hop, hclear⟩ := pinRow_selects_iff.mp h
    exact ⟨_, .inr (.inr (.inl ⟨hop, hclear, rfl⟩)), rfl⟩
  · obtain ⟨hop, hclear⟩ := svcRow_selects_iff.mp h
    exact ⟨_, .inr (.inr (.inr (.inl ⟨hop, hclear, rfl⟩))), rfl⟩
  · obtain ⟨hop, hclear⟩ := rdRow_selects_iff.mp h
    exact ⟨_, .inr (.inr (.inr (.inr (.inl ⟨hop, hclear, rfl⟩)))), rfl⟩
  · obtain ⟨hop, hclear⟩ := wrRow_selects_iff.mp h
    exact ⟨_, .inr (.inr (.inr (.inr (.inr ⟨hop, hclear, rfl⟩)))), rfl⟩

end Sys2Proof

namespace Sys2Proof.Asm

theorem fit_eq_some {i : Instr} (h : i.wellFormed = true) : fit i = some i := if_pos h

theorem fit_eq_none {i : Instr} (h : i.wellFormed = false) : fit i = none := by simp [fit, h]

/-- A level that fits its bit (R90). -/
theorem fitPin_eq_some {s : Nat} (v : Bool) (h : s ≤ 15) : fitPin s v.toNat = some (.pin s v) := by
  have hwf : (Instr.pin s v).wellFormed = true := by simpa [Instr.wellFormed] using h
  cases v <;> simpa [fitPin] using fit_eq_some hwf

theorem copies_eq_some {n : Nat} (i : Instr) (h : 1 ≤ n) : copies n i = some (List.replicate n i) := if_pos h

end Sys2Proof.Asm
end

section
/-! The obligations on the operation words of 30_encoding.md and their byte form. -/

namespace Sys2Proof

/-- Settles O6: the fields of the word are those of the operation, and the decoder reads them back. -/
theorem decodeOfEncode : Obligations.DecodeOfEncode := fun _ hwf => decode_encode hwf

/-- Settles O7: the accepted fields are those of the operation, and a word is its fields. -/
theorem encodeOfDecode : Obligations.EncodeOfDecode := fun _ _ h => encode_of_decode h

/-- Settles O11: a word that two rows match decodes to an operation of either, and it decodes to one operation only. -/
theorem oneTableRowPerWord : Obligations.OneTableRowPerWord := by
  refine ⟨fun w r q hr hq hrw hqw => ?_, fun w i h => ⟨row_mem_opcodeTable i, row_selects_of_decode h⟩,
    fun w e he r hr => ?_⟩
  · obtain ⟨i, hi, rfl⟩ := decode_of_row_selects hr hrw
    obtain ⟨j, hj, rfl⟩ := decode_of_row_selects hq hqw
    obtain rfl : i = j := by simpa [hi] using hj
    rfl
  · by_contra hsel
    obtain ⟨i, hi, -⟩ := decode_of_row_selects hr (by simpa using hsel)
    simp [he] at hi

/-- Settles O12: the four bytes side by side are the word. -/
theorem traceBytesAreLittleEndian : Obligations.TraceBytesAreLittleEndian := by
  intro w rest
  constructor
  · have hword : w.extractLsb' 24 8 ++ w.extractLsb' 16 8 ++ w.extractLsb' 8 8 ++ w.extractLsb' 0 8 = w := by
      rw [BitVec.extractLsb'_append_extractLsb'_eq_extractLsb' (start₂ := 24) (start₁ := 16) rfl,
        BitVec.extractLsb'_append_extractLsb'_eq_extractLsb' (start₂ := 16) (start₁ := 8) rfl,
        BitVec.extractLsb'_append_extractLsb'_eq_extractLsb' (start₂ := 8) (start₁ := 0) rfl]
      exact BitVec.extractLsb'_eq_self
    simp only [wordBytes, wordOfBytes, List.cons_append, List.nil_append, hword]
  · simp only [wordBytes, List.map_cons, List.map_nil, BitVec.extractLsb'_toNat, Nat.shiftRight_eq_div_pow]
    norm_num

/-- Settles O8: each line assembles and each word decodes by evaluation; 1001 is above PERIOD. -/
theorem specExampleWords : Obligations.SpecExampleWords := by
  refine ⟨by decide, by decide, by decide, by decide, by decide, by decide, by decide, by decide, by decide,
    by decide, by decide, fun s hduty hperiod => ?_⟩
  obtain ⟨d, m, hchan⟩ := Config.isDutyChan_iff.mp hduty
  exact Machine.exec_wr_refused (r := .duty .ch0) (Config.hasChan_of_chan? hchan)
    (Machine.writeFault_duty_outOfRange hduty (by omega))

/-- Settles O14: an operation that does not fit is none, and so is a line of it. -/
theorem assemblerRefusesUnfitOperands : Obligations.AssemblerRefusesUnfitOperands := by
  intro period s v n x
  have unfit : ∀ i : Instr, i.wellFormed = false → [Asm.fit i].allSome = none := by
    intro i hi
    rw [Asm.fit_eq_none hi]
    rfl
  refine ⟨fun hs => ⟨?_, unfit _ (by simpa [Instr.wellFormed] using hs)⟩, fun hv => ?_,
    fun hn => ⟨unfit _ (by simpa [Instr.wellFormed] using hn), unfit _ ?_⟩, fun hx => unfit _ ?_⟩
  · have hpin : Asm.fitPin s v = none := by simp [Asm.fitPin, Asm.fit, Instr.wellFormed, hs]
    rw [Asm.expand, hpin]
    rfl
  · have hpin : Asm.fitPin s v = none := if_neg (by omega)
    rw [Asm.expand, hpin]
    rfl
  · simp [Instr.wellFormed, hn]
  · simp [Instr.wellFormed, hx]

/-- Settles O15: each operation of an expansion fits, so the line is the list of them. -/
theorem pseudoOperationsExpand : Obligations.PseudoOperationsExpand := by
  intro period n s ch x ie esel hn hperiod hs hch hx hie hesel
  have hpress : Asm.fitPin s 1 = some (.pin s true) := Asm.fitPin_eq_some true hs
  have hrelease : Asm.fitPin s 0 = some (.pin s false) := Asm.fitPin_eq_some false hs
  have single : ∀ i : Instr, i.wellFormed = true → [Asm.fit i].allSome = some [i] := by
    intro i hi
    rw [Asm.fit_eq_some hi]
    rfl
  refine ⟨Asm.copies_eq_some _ hn, Asm.copies_eq_some _ hperiod, Asm.copies_eq_some _ hn, ?_, ?_, single _ ?_,
    single _ ?_, single _ ?_, single _ ?_⟩
  · rw [Asm.expand, hpress, hrelease]
    rfl
  · have hsvc : Asm.fit (.svc s) = some (.svc s) := Asm.fit_eq_some (by simpa [Instr.wellFormed] using hs)
    rw [Asm.expand, hpress, hrelease, hsvc]
    rfl
  all_goals
    simp only [Instr.wellFormed, Bool.and_eq_true, decide_eq_true_eq]
    omega

end Sys2Proof
end

section
/-! SUPPORT. More of what a well-formed configuration gives (00_scope.md R8 to R13). -/

namespace Sys2Proof.Config

/-- A channel that is not FADE stands in a configuration without a fade sequencer (R13). -/
theorem fade_eq_none {cfg : Config} (h : cfg.wellFormed = true) {c : Chan} {cc : ChanCfg}
    (hc : cfg.chan? c = some cc) (hk : cc.kind.isFade = false) : cfg.fade = none := by
  cases hp : cfg.fade with
  | none => rfl
  | some p =>
    obtain ⟨m, hm⟩ := wellFormed_fade_chan h hp c
    rw [hc] at hm
    cases hm
    cases hk

/-- DB_WINDOW fits a register. -/
theorem dbWindow_toNat {cfg : Config} (h : cfg.wellFormed = true) :
    (BitVec.ofNat 16 cfg.dbWindow).toNat = cfg.dbWindow := by
  obtain ⟨-, -, -, -, -, hdb⟩ := wellFormed_sizes h
  exact Nat.mod_eq_of_lt (show cfg.dbWindow < 65536 by omega)

end Sys2Proof.Config
end

section
/-! SUPPORT. The elements a TICK leaves (42_waveform.md R118), and the state after an operation word: every word has a
next state (44_host_access.md R161). -/

namespace Sys2Proof.Machine

section
variable (s : State)

@[simp] theorem State.ticked_err : s.ticked.err = s.err := rfl
@[simp] theorem State.ticked_stream : s.ticked.stream = s.stream := rfl
@[simp] theorem State.ticked_resp : s.ticked.resp = some (.ok 0) := rfl
@[simp] theorem State.ticked_fade : s.ticked.fade = s.fade := rfl
@[simp] theorem State.ticked_duty (c : Chan) : s.ticked.duty c = s.duty c := setOuts_duty _ _ c
@[simp] theorem State.ticked_level (c : Chan) : s.ticked.level c = s.level c := setOuts_level _ _ c
@[simp] theorem State.ticked_pend (i : Site) : s.ticked.pend i = s.pend i := setDbcs_pend _ _ i
@[simp] theorem State.ticked_pinl (i : Site) : s.ticked.pinl i = s.pinl i := setDbcs_pinl _ _ i
@[simp] theorem State.ticked_esel (i : Site) : s.ticked.esel i = s.esel i := setDbcs_esel _ _ i
@[simp] theorem State.ticked_ie (i : Site) : s.ticked.ie i = s.ie i := setDbcs_ie _ _ i
@[simp] theorem State.ticked_dbc (i : Site) : s.ticked.dbc i = s.dbcAfterTick i := setDbcs_dbc _ _ i

end

theorem exec_next (i : Instr) (s : State) : ∃ t, exec i s = .next t := by
  cases i with
  | tick => exact ⟨_, rfl⟩
  | ftick =>
    simp only [exec, execFtick]
    split
    · exact ⟨_, rfl⟩
    · split <;> exact ⟨_, rfl⟩
  | pin n v =>
    simp only [exec, execPin]
    split <;> exact ⟨_, rfl⟩
  | svc n =>
    simp only [exec, execSvc]
    split
    · exact ⟨_, rfl⟩
    · split <;> exact ⟨_, rfl⟩
  | rd n =>
    simp only [exec, execRd]
    split <;> exact ⟨_, rfl⟩
  | wr n x =>
    simp only [exec, execWr]
    split
    · exact ⟨_, rfl⟩
    · split <;> exact ⟨_, rfl⟩

/-- Every operation word has a next state (R161). -/
theorem runWord_eq_afterWord (s : State) (w : OpWord) : runWord w s = .next (s.afterWord w) := by
  have hnext : ∃ t, runWord w s = .next t := by
    cases h : decode w with
    | ok i => rw [runWord_of_ok h]; exact exec_next i s
    | error e => exact ⟨_, runWord_of_error h s⟩
  obtain ⟨t, ht⟩ := hnext
  rw [State.afterWord, ht, State.after]

end Sys2Proof.Machine
end

section
/-! SUPPORT. Which writes keep the invariants of 10_state.md R22. -/

namespace Sys2Proof.Machine

theorem State.chans_get_eq {s t : State} {c : Chan} (h : s.SameChan t c) : t.chans.get c = s.chans.get c := by
  obtain ⟨hout, hduty, hlevel⟩ := h
  calc t.chans.get c = ⟨t.out c, t.duty c, t.level c⟩ := rfl
    _ = s.chans.get c := by rw [hout, hduty, hlevel]; rfl

theorem State.sites_get_eq {s t : State} {i : Site} (h : s.SameSite t i) : t.sites.get i = s.sites.get i := by
  obtain ⟨hpend, hpinl, hesel, hie, hdbc⟩ := h
  calc t.sites.get i = ⟨t.pend i, t.pinl i, t.esel i, t.ie i, t.dbc i⟩ := rfl
    _ = s.sites.get i := by rw [hpend, hpinl, hesel, hie, hdbc]; rfl

/-- An operation that writes no duty register, no level index, no ERR and no fade element keeps the invariants as long
as CNT and DBC stay in range and absent elements are left. -/
theorem State.Inv.of_frame {s t : State} (h : s.Inv) (cfg : t.cfg = s.cfg) (err : t.err = s.err)
    (fade : t.fade = s.fade) (cnt : t.cnt.toNat < s.cfg.period)
    (chan : ∀ c, t.duty c = s.duty c ∧ t.level c = s.level c)
    (dbc : ∀ i, s.cfg.hasSite i = true → (t.dbc i).toNat ≤ s.cfg.dbWindow)
    (out_absent : ∀ c, s.cfg.chan? c = none → t.out c = s.out c)
    (site_absent : ∀ i, s.cfg.site? i = none → s.SameSite t i) : t.Inv where
  config := by rw [cfg]; exact h.config
  cnt_lt_period := by rw [cfg]; exact cnt
  chan c cc hcc := by
    rw [cfg] at hcc
    obtain ⟨hle, halias, hzero⟩ := h.chan c cc hcc
    obtain ⟨hd, hl⟩ := chan c
    exact ⟨by rwa [hd, cfg], by rwa [hd, hl, cfg], by rwa [hl]⟩
  fade_seq p hp := by
    rw [cfg] at hp
    have hfcnt : t.fcnt = s.fcnt := congrArg FadeState.fcnt fade
    have hphase : t.phase = s.phase := congrArg FadeState.phase fade
    have hfivl : t.fivl = s.fivl := congrArg FadeState.fivl fade
    obtain ⟨h1, h2, h3, h4, h5, h6, h7⟩ := h.fade_seq p hp
    constructor <;> simp only [hphase, hfcnt, hfivl, cfg, (chan _).1] <;> assumption
  dbc_le i hi := by rw [cfg] at hi ⊢; exact dbc i hi
  err_bits := by rw [err]; exact h.err_bits
  chan_absent c hc := by
    rw [cfg] at hc
    rw [State.chans_get_eq ⟨out_absent c hc, chan c⟩]
    exact h.chan_absent c hc
  site_absent i hi := by
    rw [cfg] at hi
    rw [State.sites_get_eq (site_absent i hi)]
    exact h.site_absent i hi
  fade_absent hf := by rw [cfg] at hf; rw [fade]; exact h.fade_absent hf

/-- A write to one channel that is not FADE keeps the invariants as long as it keeps that channel's. -/
theorem State.Inv.of_chan_write {s t : State} {c : Chan} {cc : ChanCfg} (h : s.Inv) (hcc : s.cfg.chan? c = some cc)
    (hk : cc.kind.isFade = false) (cfg : t.cfg = s.cfg) (cnt : t.cnt = s.cnt) (err : t.err = s.err)
    (fade : t.fade = s.fade) (sites : t.sites = s.sites) (other : ∀ d, d ≠ c → s.SameChan t d)
    (this : t.ChanInv c cc) : t.Inv where
  config := by rw [cfg]; exact h.config
  cnt_lt_period := by rw [cfg, cnt]; exact h.cnt_lt_period
  chan d dd hdd := by
    rw [cfg] at hdd
    by_cases hd : d = c
    · subst hd
      obtain rfl : cc = dd := by simpa [hcc] using hdd
      exact this
    · obtain ⟨hle, halias, hzero⟩ := h.chan d dd hdd
      obtain ⟨-, hduty, hlevel⟩ := other d hd
      exact ⟨by rwa [hduty, cfg], by rwa [hduty, hlevel, cfg], by rwa [hlevel]⟩
  fade_seq p hp := by
    rw [cfg, Config.fade_eq_none h.config hcc hk] at hp
    cases hp
  dbc_le i hi := by rw [cfg] at hi ⊢; simpa [State.dbc, sites] using h.dbc_le i hi
  err_bits := by rw [err]; exact h.err_bits
  chan_absent d hd := by
    rw [cfg] at hd
    have hne : d ≠ c := by rintro rfl; simp [hcc] at hd
    rw [State.chans_get_eq (other d hne)]
    exact h.chan_absent d hd
  site_absent i hi := by rw [cfg] at hi; rw [sites]; exact h.site_absent i hi
  fade_absent hf := by rw [cfg] at hf; rw [fade]; exact h.fade_absent hf

/-- Writing a value in [0, PERIOD] to a DUTY register. -/
theorem State.Inv.setDuty {s : State} {c : Chan} {x : Nat} (h : s.Inv) (hc : s.cfg.isDutyChan c = true)
    (hx : x ≤ s.cfg.period) : (s.setDuty c (BitVec.ofNat 16 x)).Inv := by
  obtain ⟨d, m, hcc⟩ := Config.isDutyChan_iff.mp hc
  obtain ⟨-, hperiod, -⟩ := Config.wellFormed_sizes h.config
  refine h.of_chan_write hcc rfl rfl rfl rfl rfl rfl (fun d hd => ?_) ⟨?_, nofun, fun hl => ?_⟩
  · simp [State.SameChan, hd]
  · simpa [Nat.mod_eq_of_lt (show x < 65536 by omega)] using hx
  · simpa using (h.chan c _ hcc).level_zero hl

/-- Writing a level index in [0, 10] with its alias (10_state.md R25). -/
theorem State.Inv.setLevelAlias {s : State} {c : Chan} {l : Nat} (h : s.Inv) (hc : s.cfg.isLevelChan c = true)
    (hl : l ≤ 10) : (s.setLevelAlias c l).Inv := by
  obtain ⟨d, m, hcc⟩ := Config.isLevelChan_iff.mp hc
  obtain ⟨-, hperiod, -⟩ := Config.wellFormed_sizes h.config
  obtain ⟨-, hentry⟩ := Config.levelTable_get h.config hl
  have hlevel : ((s.setLevelAlias c l).level c).toNat = l := by
    simp [Nat.mod_eq_of_lt (show l < 65536 by omega)]
  have hduty : ((s.setLevelAlias c l).duty c).toNat = s.cfg.levelDuty l := by
    simp [Nat.mod_eq_of_lt (show s.cfg.levelDuty l < 65536 by omega)]
  refine h.of_chan_write hcc rfl rfl rfl rfl rfl rfl (fun d hd => ?_) ⟨?_, fun _ => ?_, nofun⟩
  · simp [State.SameChan, hd]
  · rw [hduty]; exact hentry
  · rw [hduty, hlevel]; exact ⟨hl, rfl⟩

/-- The update of a serviced site keeps the invariants: it lands within the site's bounds (R109). -/
theorem State.Inv.applyUpdate {s : State} {i : Site} {sc : SiteCfg} (h : s.Inv) (hi : s.cfg.site? i = some sc) :
    (s.applyUpdate sc).Inv := by
  obtain ⟨c, ht, hc, heq⟩ | ⟨c, ht, hc, heq⟩ | ⟨-, heq⟩ := s.applyUpdate_cases sc
  · obtain ⟨hmin, hle, hmax⟩ := Config.wellFormed_duty_site h.config hi ht hc
    have hupd := upd_within hle (s.duty c).toNat
    rw [heq]
    exact h.setDuty hc (by omega)
  · obtain ⟨hmin, hle, hmax⟩ := Config.wellFormed_level_site h.config hi ht hc
    have hupd := upd_within hle (s.level c).toNat
    rw [heq]
    exact h.setLevelAlias hc (by omega)
  · rw [heq]; exact h

/-- A write to the elements of one site that exists keeps the invariants as long as DBC stays in range. -/
theorem State.Inv.of_site_write {s t : State} {i : Site} (h : s.Inv) (hi : s.cfg.hasSite i = true) (cfg : t.cfg = s.cfg)
    (cnt : t.cnt = s.cnt) (err : t.err = s.err) (chans : t.chans = s.chans) (fade : t.fade = s.fade)
    (other : ∀ j, j ≠ i → s.SameSite t j) (dbc : (t.dbc i).toNat ≤ s.cfg.dbWindow) : t.Inv := by
  have hchan : ∀ c, s.SameChan t c := fun c => by simp [State.SameChan, State.out, State.duty, State.level, chans]
  refine h.of_frame cfg err fade (cnt ▸ h.cnt_lt_period) (fun c => (hchan c).2) (fun j hj => ?_)
    (fun c _ => (hchan c).1) (fun j hj => other j ?_)
  · by_cases hji : j = i
    · rw [hji]; exact dbc
    · obtain ⟨-, -, -, -, hdbc⟩ := other j hji
      rw [hdbc]; exact h.dbc_le j hj
  · rintro rfl
    simp [Config.hasSite, hj] at hi

theorem State.Inv.ticked {s : State} (h : s.Inv) : s.ticked.Inv := by
  refine h.of_frame rfl rfl rfl ?_ (fun c => by simp) (fun i hi => ?_) (fun c hc => ?_) (fun i hi => ?_)
  · rw [State.ticked_cnt_toNat h.config]; exact State.nextCount_lt h.config
  · have hdbc := h.dbc_le i hi
    rw [s.ticked_dbc, State.dbcAfterTick_toNat hi]; omega
  · rw [s.ticked_out, State.outAfterTick_absent _ (by simp [Config.hasChan, hc])]
  · simp [State.SameSite, State.dbcAfterTick_absent (show s.cfg.hasSite i = false by simp [Config.hasSite, hi])]

end Sys2Proof.Machine
end

section
/-! SUPPORT. The fade tick under the invariants (43_fade.md R137 to R142). -/

namespace Sys2Proof.Machine

/-- Every duty register of a machine that fades is at most PERIOD. -/
theorem State.FadeInv.duty_le {s : State} {p : FadeCfg} (h : s.FadeInv p) (c : Chan) :
    (s.duty c).toNat ≤ s.cfg.period := by
  have hsum := h.sum_period
  obtain rfl | rfl | rfl := s.phase.chan_cases c
  · omega
  · omega
  · rw [h.other_zero]; exact Nat.zero_le _

/-- The fade sequencer and its channels may change as long as they keep their own invariant. -/
theorem State.Inv.of_fade {s t : State} {p : FadeCfg} (h : s.Inv) (hp : s.cfg.fade = some p) (cfg : t.cfg = s.cfg)
    (cnt : t.cnt = s.cnt) (err : t.err = s.err) (sites : t.sites = s.sites) (level : ∀ c, t.level c = s.level c)
    (fade : t.FadeInv p) : t.Inv where
  config := by rw [cfg]; exact h.config
  cnt_lt_period := by rw [cfg, cnt]; exact h.cnt_lt_period
  chan c cc hcc := by
    rw [cfg] at hcc
    obtain ⟨m, hm⟩ := Config.wellFormed_fade_chan h.config hp c
    obtain rfl : (⟨.fade, m⟩ : ChanCfg) = cc := by simpa [hm] using hcc
    exact ⟨fade.duty_le c, nofun, fun hl => (level c).trans ((h.chan c _ hcc).level_zero hl)⟩
  fade_seq q hq := by
    rw [cfg, hp] at hq
    cases hq
    exact fade
  dbc_le i hi := by rw [cfg] at hi ⊢; simpa [State.dbc, sites] using h.dbc_le i hi
  err_bits := by rw [err]; exact h.err_bits
  chan_absent c hc := by
    obtain ⟨m, hm⟩ := Config.wellFormed_fade_chan h.config hp c
    rw [cfg, hm] at hc
    cases hc
  site_absent i hi := by rw [cfg] at hi; rw [sites]; exact h.site_absent i hi
  fade_absent hf := by rw [cfg, hp] at hf; cases hf

section
variable {s : State} {p : FadeCfg}

theorem State.fadeTick_falling_toNat (s : State) (p : FadeCfg) :
    ((s.fadeTick p).duty s.phase.falling).toNat = (s.duty s.phase.falling).toNat - p.step := by
  have hlt := (s.duty s.phase.falling).isLt
  rw [s.fadeTick_duty, if_pos rfl, BitVec.toNat_ofNat, Nat.mod_eq_of_lt (by omega)]

theorem State.fadeTick_rising_toNat (h : s.Inv) (hp : s.cfg.fade = some p) :
    ((s.fadeTick p).duty s.phase.rising).toNat = (s.duty s.phase.rising).toNat + p.step := by
  obtain ⟨-, hperiod, -⟩ := Config.wellFormed_sizes h.config
  have hf := h.fade_seq p hp
  have hsum := hf.sum_period
  have hstep := hf.falling_ge_step
  rw [s.fadeTick_duty, if_neg s.phase.rising_ne_falling, if_pos rfl, BitVec.toNat_ofNat, Nat.mod_eq_of_lt (by omega)]

theorem State.fadeTick_other (s : State) (p : FadeCfg) : (s.fadeTick p).duty s.phase.other = s.duty s.phase.other := by
  simp [s.fadeTick_duty]

theorem State.fadeTick_fivl_toNat (h : s.Inv) (hp : s.cfg.fade = some p) :
    (s.fadeTick p).fivl.toNat = nextInterval p s.fivl.toNat := by
  obtain ⟨-, -, -, -, hinit, hmax, -⟩ := Config.wellFormed_fade h.config hp
  obtain ⟨-, hle⟩ := nextInterval_bounds hinit (h.fade_seq p hp).fivl_ge
  rw [s.fadeTick_fivl, BitVec.toNat_ofNat, Nat.mod_eq_of_lt (by omega)]

/-- A fade tick keeps the invariant of the sequencer: within a phase the multiple of FADE_STEP goes down, and at the
phase's end the channels change roles (R140). -/
theorem State.FadeInv.fadeTick (h : s.Inv) (hp : s.cfg.fade = some p) : (s.fadeTick p).FadeInv p := by
  obtain ⟨hstep, hstep_le, hdvd, hinit_pos, hinit, hmax, -, -⟩ := Config.wellFormed_fade h.config hp
  obtain ⟨hother, hsum, hge, hmul, -, hfivl, -⟩ := h.fade_seq p hp
  have hfall := s.fadeTick_falling_toNat p
  have hrise := State.fadeTick_rising_toNat h hp
  have hrest := s.fadeTick_other p
  have hivl := State.fadeTick_fivl_toNat h hp
  obtain ⟨hlow, hhigh⟩ := nextInterval_bounds hinit hfivl
  have hfcnt : (s.fadeTick p).fcnt.toNat < (s.fadeTick p).fivl.toNat := by
    rw [hivl, s.fadeTick_fcnt]
    exact hinit_pos.trans hlow
  have hmul' : ((s.fadeTick p).duty s.phase.falling).toNat % p.step = 0 := by
    rw [hfall]
    exact Nat.mod_eq_zero_of_dvd (Nat.dvd_sub (Nat.dvd_of_mod_eq_zero hmul) (dvd_refl _))
  by_cases hz : (s.fadeTick p).duty s.phase.falling = 0
  · have hphase : (s.fadeTick p).phase = s.phase.succ := by rw [s.fadeTick_phase, if_pos hz]
    have hzero : ((s.fadeTick p).duty s.phase.falling).toNat = 0 := by rw [hz]; rfl
    have hfull : ((s.fadeTick p).duty s.phase.rising).toNat = s.cfg.period := by omega
    have hempty : ((s.fadeTick p).duty s.phase.other).toNat = 0 := by rw [hrest, hother]; rfl
    constructor <;> simp only [hphase, s.phase.succ_falling, s.phase.succ_rising, s.phase.succ_other, s.fadeTick_cfg,
      hfull, hempty, hivl]
    · exact hz
    · exact Nat.add_zero _
    · exact hstep_le
    · exact hdvd
    · rw [← hivl]; exact hfcnt
    · exact hlow
    · exact hhigh
  · have hphase : (s.fadeTick p).phase = s.phase := by rw [s.fadeTick_phase, if_neg hz]
    have hpos : 0 < ((s.fadeTick p).duty s.phase.falling).toNat :=
      Nat.pos_of_ne_zero fun h0 => hz (BitVec.eq_of_toNat_eq h0)
    constructor <;> simp only [hphase, s.fadeTick_cfg, hrest, hivl]
    · exact hother
    · omega
    · exact Nat.le_of_dvd hpos (Nat.dvd_of_mod_eq_zero hmul')
    · exact hmul'
    · rw [← hivl]; exact hfcnt
    · exact hlow
    · exact hhigh

/-- The count of an FTICK that is no fade tick fits a register. -/
theorem State.fcnt_succ_toNat (hlt : s.fcnt.toNat + 1 < s.fivl.toNat) :
    (BitVec.ofNat 16 (s.fcnt.toNat + 1)).toNat = s.fcnt.toNat + 1 := by
  have := s.fivl.isLt
  rw [BitVec.toNat_ofNat, Nat.mod_eq_of_lt (by omega)]

theorem State.FadeInv.setFcnt_succ (h : s.FadeInv p) (hne : s.fcnt.toNat + 1 ≠ s.fivl.toNat) :
    (s.setFcnt (BitVec.ofNat 16 (s.fcnt.toNat + 1))).FadeInv p := by
  have hcount := h.fcnt_lt
  have hlt : s.fcnt.toNat + 1 < s.fivl.toNat := by omega
  obtain ⟨h1, h2, h3, h4, -, h6, h7⟩ := h
  exact ⟨h1, h2, h3, h4, by rw [State.setFcnt_fcnt, State.fcnt_succ_toNat hlt]; exact hlt, h6, h7⟩

end

end Sys2Proof.Machine
end

section
/-! SUPPORT. Every operation word, every step and every run keeps the invariants of 10_state.md R22. -/

namespace Sys2Proof.Machine

theorem exec_keeps_inv {s t : State} {i : Instr} (h : s.Inv) (hrun : exec i s = .next t) : t.Inv := by
  cases i with
  | tick =>
    cases hrun
    exact h.ticked
  | ftick =>
    obtain ⟨-, rfl⟩ | ⟨p, hp, -, rfl⟩ | ⟨p, hp, hne, rfl⟩ := execFtick_cases hrun
    · exact h.complete 0
    · refine State.Inv.complete ?_ 0
      exact h.of_fade hp (by simp) (by simp) (by simp) (by simp) (by simp) (.fadeTick h hp)
    · refine State.Inv.complete ?_ 0
      exact h.of_fade hp rfl rfl rfl rfl (fun _ => rfl) ((h.fade_seq p hp).setFcnt_succ hne)
  | pin n v =>
    obtain ⟨-, rfl⟩ | ⟨i, sc, -, hi, -, rfl⟩ | ⟨i, sc, -, hi, -, rfl⟩ := execPin_cases hrun
    · exact h.raise _
    · refine State.Inv.complete ?_ 0
      refine h.of_site_write (Config.hasSite_of_site? hi) rfl rfl rfl rfl rfl (fun j hj => ?_) ?_
      · simp [State.SameSite, State.latchEdge, hj]
      · simp [State.latchEdge, Nat.mod_le]
    · refine State.Inv.complete ?_ 0
      refine h.of_site_write (Config.hasSite_of_site? hi) rfl rfl rfl rfl rfl (fun j hj => ?_) ?_
      · simp [State.SameSite, hj]
      · simpa using h.dbc_le i (Config.hasSite_of_site? hi)
  | svc n =>
    obtain ⟨-, rfl⟩ | ⟨i, sc, -, hi, -, rfl⟩ | ⟨i, sc, -, -, -, rfl⟩ := execSvc_cases hrun
    · exact h.raise _
    · have hu : (s.applyUpdate sc).Inv := h.applyUpdate hi
      have hsite : (s.applyUpdate sc).cfg.hasSite i = true := by
        rw [s.applyUpdate_cfg]; exact Config.hasSite_of_site? hi
      refine State.Inv.complete ?_ 0
      refine hu.of_site_write hsite rfl rfl rfl rfl rfl (fun j hj => ?_) ?_
      · simp [State.SameSite, hj]
      · simpa using hu.dbc_le i hsite
    · exact h.raise _
  | rd n =>
    obtain ⟨-, rfl⟩ | ⟨r, -, -, rfl⟩ := execRd_cases hrun
    · exact h.raise _
    · exact h.complete _
  | wr n x =>
    obtain ⟨-, rfl⟩ | ⟨r, c, -, -, -, rfl⟩ | ⟨r, -, hpres, hok, rfl⟩ := execWr_cases hrun
    · exact h.raise _
    · exact h.raise _
    · refine State.Inv.complete ?_ 0
      obtain ⟨i, rfl, -⟩ | ⟨c, rfl, hc, hx⟩ | ⟨c, rfl, hc, hx⟩ := writeFault_eq_none hok
      · refine h.of_site_write hpres rfl rfl rfl rfl rfl (fun j hj => s.writeReg_siteCfg_sameSite x hj) ?_
        rw [s.writeReg_dbc]
        exact h.dbc_le i hpres
      · exact h.setDuty hc hx
      · exact h.setLevelAlias hc hx

theorem runWord_keeps_inv {s t : State} {w : OpWord} (h : s.Inv) (hrun : runWord w s = .next t) : t.Inv := by
  obtain ⟨e, -, rfl⟩ | ⟨i, -, hexec⟩ := runWord_cases hrun
  · exact h.raise _
  · exact exec_keeps_inv h hexec

theorem State.Inv.afterWord {s : State} (h : s.Inv) (w : OpWord) : (s.afterWord w).Inv :=
  runWord_keeps_inv h (runWord_eq_afterWord s w)

theorem State.Inv.trace {s : State} (h : s.Inv) (ops : Nat → OpWord) (n : Nat) : (s.trace ops n).Inv := by
  induction n with
  | zero => exact h
  | succ n ih => exact ih.afterWord (ops n)

theorem step_keeps_inv {s t : State} (h : s.Inv) (hstep : step s = .next t) : t.Inv := by
  obtain ⟨-, ⟨-, rfl⟩ | ⟨w, rest, -, hrun⟩⟩ := step_cases hstep
  · exact h
  · have htaken : State.Inv { s with stream := rest } := h.of_eq rfl rfl rfl rfl rfl h.err_bits
    exact runWord_keeps_inv htaken hrun

end Sys2Proof.Machine
end

section
/-! The obligation on the invariants of 10_state.md. -/

namespace Sys2Proof.Machine

/-- Settles O19: each operation is one of the writes that keep the invariants. -/
theorem stepKeepsInvariants : Obligations.StepKeepsInvariants := fun _ _ h hstep => step_keeps_inv h hstep

end Sys2Proof.Machine
end

section
/-! SUPPORT. What a step does for each stream (00_scope.md R6), and the fields no operation writes. -/

namespace Sys2Proof.Machine

/-- A step with an operation presented is the run of its word with the word taken from the stream. -/
theorem step_of_stream {s : State} {w : OpWord} {rest : List OpWord} (hwf : s.cfg.wellFormed = true)
    (hs : s.stream = w :: rest) : step s = runWord w { s with stream := rest } := by
  simp only [step, hwf, if_true, State.takeOp, hs]

theorem step_of_empty {s : State} (hwf : s.cfg.wellFormed = true) (hs : s.stream = []) : step s = .next s := by
  simp only [step, hwf, if_true, State.takeOp, hs]

theorem step_of_illFormed {s : State} (hwf : s.cfg.wellFormed = false) : step s = .refused .illFormedConfig := by
  simp [step, hwf]

theorem exec_cfg {s t : State} {i : Instr} (h : exec i s = .next t) : t.cfg = s.cfg := by
  cases i with
  | tick => cases h; rfl
  | ftick =>
    obtain ⟨-, rfl⟩ | ⟨p, -, -, rfl⟩ | ⟨p, -, -, rfl⟩ := execFtick_cases h
    · rfl
    · exact s.fadeTick_cfg p
    · rfl
  | pin n v =>
    obtain ⟨-, rfl⟩ | ⟨i, sc, -, -, -, rfl⟩ | ⟨i, sc, -, -, -, rfl⟩ := execPin_cases h <;> rfl
  | svc n =>
    obtain ⟨-, rfl⟩ | ⟨i, sc, -, -, -, rfl⟩ | ⟨i, sc, -, -, -, rfl⟩ := execSvc_cases h
    · rfl
    · exact s.applyUpdate_cfg sc
    · rfl
  | rd n => obtain ⟨-, rfl⟩ | ⟨r, -, -, rfl⟩ := execRd_cases h <;> rfl
  | wr n x =>
    obtain ⟨-, rfl⟩ | ⟨r, c, -, -, -, rfl⟩ | ⟨r, -, -, -, rfl⟩ := execWr_cases h
    · rfl
    · rfl
    · exact s.writeReg_cfg r x

theorem runWord_cfg {s t : State} {w : OpWord} (h : runWord w s = .next t) : t.cfg = s.cfg := by
  obtain ⟨e, -, rfl⟩ | ⟨i, -, hexec⟩ := runWord_cases h
  · rfl
  · exact exec_cfg hexec

@[simp] theorem State.afterWord_cfg (s : State) (w : OpWord) : (s.afterWord w).cfg = s.cfg :=
  runWord_cfg (runWord_eq_afterWord s w)

@[simp] theorem State.trace_cfg (s : State) (ops : Nat → OpWord) (n : Nat) : (s.trace ops n).cfg = s.cfg := by
  induction n with
  | zero => rfl
  | succ n ih => rw [State.trace, State.afterWord_cfg, ih]

@[simp] theorem State.afterWords_cfg (s : State) (ws : List OpWord) : (s.afterWords ws).cfg = s.cfg := by
  induction ws generalizing s with
  | nil => rfl
  | cons w ws ih => rw [State.afterWords, ih, State.afterWord_cfg]

/-- An operation that completes answers OK with data 0 and leaves ERR, or it is a RD, which leaves everything. -/
theorem exec_complete_cases {s t : State} {i : Instr} (h : exec i s = .next t) :
    (∃ c, t = s.raise c) ∨ (∃ n x, i = .rd n ∧ t = s.complete x) ∨ (t.resp = some (.ok 0) ∧ t.err = s.err) := by
  cases i with
  | tick => cases h; exact .inr (.inr ⟨rfl, rfl⟩)
  | ftick =>
    obtain ⟨-, rfl⟩ | ⟨p, -, -, rfl⟩ | ⟨p, -, -, rfl⟩ := execFtick_cases h
    · exact .inr (.inr ⟨rfl, rfl⟩)
    · exact .inr (.inr ⟨rfl, s.fadeTick_err p⟩)
    · exact .inr (.inr ⟨rfl, rfl⟩)
  | pin n v =>
    obtain ⟨-, rfl⟩ | ⟨i, sc, -, -, -, rfl⟩ | ⟨i, sc, -, -, -, rfl⟩ := execPin_cases h
    · exact .inl ⟨_, rfl⟩
    · exact .inr (.inr ⟨rfl, rfl⟩)
    · exact .inr (.inr ⟨rfl, rfl⟩)
  | svc n =>
    obtain ⟨-, rfl⟩ | ⟨i, sc, -, -, -, rfl⟩ | ⟨i, sc, -, -, -, rfl⟩ := execSvc_cases h
    · exact .inl ⟨_, rfl⟩
    · exact .inr (.inr ⟨rfl, s.applyUpdate_err sc⟩)
    · exact .inl ⟨_, rfl⟩
  | rd n =>
    obtain ⟨-, rfl⟩ | ⟨r, -, -, rfl⟩ := execRd_cases h
    · exact .inl ⟨_, rfl⟩
    · exact .inr (.inl ⟨n, _, rfl, rfl⟩)
  | wr n x =>
    obtain ⟨-, rfl⟩ | ⟨r, c, -, -, -, rfl⟩ | ⟨r, -, -, -, rfl⟩ := execWr_cases h
    · exact .inl ⟨_, rfl⟩
    · exact .inl ⟨_, rfl⟩
    · obtain ⟨-, -, -, herr, hresp⟩ := s.writeReg_frame x r
      exact .inr (.inr ⟨hresp, herr⟩)

/-- What the response of a word says: the fault entry, or OK with ERR as it was, and data only from a RD (R89). -/
theorem runWord_resp_cases {s t : State} {w : OpWord} (h : runWord w s = .next t) :
    (∃ c, t = s.raise c) ∨ (∃ x, t.resp = some (.ok x) ∧ t.err = s.err ∧ ((∃ n, decode w = .ok (.rd n)) ∨ x = 0)) := by
  obtain ⟨e, -, rfl⟩ | ⟨i, hi, hexec⟩ := runWord_cases h
  · exact .inl ⟨_, rfl⟩
  · obtain hraise | ⟨n, x, rfl, rfl⟩ | ⟨hresp, herr⟩ := exec_complete_cases hexec
    · exact .inl hraise
    · exact .inr ⟨x, rfl, rfl, .inl ⟨n, hi⟩⟩
    · exact .inr ⟨0, hresp, herr, .inr rfl⟩

theorem Response.word_ok_toNat (x : Word) : (Response.ok x).word.toNat = x.toNat := by
  have := x.isLt
  rw [Response.word, BitVec.toNat_ofNat, Nat.mod_eq_of_lt (by omega)]

end Sys2Proof.Machine
end

section
/-! SUPPORT. A well-formed configuration in the words of 00_scope.md R8 to R13, and the reset state of one. -/

namespace Sys2Proof

namespace ChanKind

theorem isFade_iff {k : ChanKind} : k.isFade = true ↔ k = .fade := by cases k <;> simp [isFade]

theorem isFade_eq_false_iff {k : ChanKind} : k.isFade = false ↔ k ≠ .fade := by cases k <;> simp [isFade]

end ChanKind

namespace Config

theorem sizesOk_iff (cfg : Config) : cfg.sizesOk = true ↔
    1 ≤ cfg.period ∧ cfg.period ≤ 65535 ∧ 1 ≤ cfg.nch ∧ cfg.nch ≤ 3 ∧ cfg.nsites ≤ 2 ∧ cfg.dbWindow ≤ 65535 := by
  simp [sizesOk]

/-- R13 item 2. -/
theorem fadeChannelsOk_iff (cfg : Config) : cfg.fadeChannelsOk = true ↔
    (cfg.fadeEn = true ↔ ∃ cc ∈ cfg.channels, cc.kind = .fade) ∧
      (cfg.fadeEn = true → cfg.nch = 3 ∧ ∀ cc ∈ cfg.channels, cc.kind = .fade) := by
  cases hf : cfg.fade with
  | none => simp [fadeChannelsOk, fadeEn, hf, ChanKind.isFade_eq_false_iff]
  | some p =>
    simp only [fadeChannelsOk, fadeEn, hf, Bool.and_eq_true, decide_eq_true_eq, List.all_eq_true,
      ChanKind.isFade_iff, Option.isSome_some, true_iff, forall_const, iff_and_self, and_imp]
    intro hn hall
    have hpos : 0 < cfg.channels.length := by unfold nch at hn; omega
    exact ⟨_, List.getElem_mem hpos, hall _ (List.getElem_mem hpos)⟩

/-- R13 item 3. -/
theorem fadeParamsOk_iff (cfg : Config) : cfg.fadeParamsOk = true ↔
    ∀ p, cfg.fade = some p → 1 ≤ p.step ∧ p.step ≤ cfg.period ∧ cfg.period % p.step = 0 ∧ 1 ≤ p.ivlInit ∧
      p.ivlInit ≤ p.ivlMax ∧ p.ivlMax ≤ 65535 ∧ 1 ≤ p.accel ∧ p.accel ≤ 65535 := by
  cases hf : cfg.fade <;> simp [fadeParamsOk, hf]

/-- R13 item 4 and R10. -/
theorem startValuesOk_iff (cfg : Config) : cfg.startValuesOk = true ↔
    (∀ cc ∈ cfg.channels, (∀ d, cc.kind = .duty d → d ≤ cfg.period) ∧ (∀ l, cc.kind = .level l → l ≤ 10)) ∧
      (cfg.levelTable.length = 11 ∧ ∀ d ∈ cfg.levelTable, d ≤ cfg.period) := by
  simp only [startValuesOk, Bool.and_eq_true, decide_eq_true_eq, List.all_eq_true, and_assoc]
  refine and_congr_left fun _ => forall₂_congr fun cc _ => ?_
  cases cc.kind <;> simp

/-- R13 item 5. -/
theorem siteOk_iff (cfg : Config) (sc : SiteCfg) : cfg.siteOk sc = true ↔
    1 ≤ sc.step ∧ sc.step ≤ 65535 ∧ ∀ c, sc.target = some c →
      ∃ cc, cfg.chan? c = some cc ∧ cc.kind ≠ .fade ∧
        (cc.kind.isDuty = true → 0 ≤ sc.min ∧ sc.min ≤ sc.max ∧ sc.max ≤ cfg.period) ∧
        (cc.kind.isLevel = true → 0 ≤ sc.min ∧ sc.min ≤ sc.max ∧ sc.max ≤ 10) := by
  simp only [siteOk, Bool.and_eq_true, decide_eq_true_eq, and_assoc]
  refine and_congr_right fun _ => and_congr_right fun _ => ?_
  cases ht : sc.target with
  | none => simp
  | some c =>
    cases hc : cfg.chan? c with
    | none => simp [hc]
    | some cc => cases hk : cc.kind <;> simp [hc, hk, ChanKind.isDuty, ChanKind.isLevel]

theorem wellFormed_iff_parts (cfg : Config) : cfg.wellFormed = true ↔
    cfg.sizesOk = true ∧ cfg.fadeChannelsOk = true ∧ cfg.fadeParamsOk = true ∧ cfg.startValuesOk = true ∧
      ∀ sc ∈ cfg.sites, cfg.siteOk sc = true := by
  simp only [wellFormed, Bool.and_eq_true, List.all_eq_true, and_assoc]

section
variable {cfg : Config}

/-- What each kind of channel starts from (R31, R32). -/
theorem reset_cases (h : cfg.wellFormed = true) {c : Chan} {cc : ChanCfg} (hc : cfg.chan? c = some cc) :
    (∃ d, cc.kind = .duty d ∧ cfg.resetDuty c = d ∧ cfg.resetLevel c = 0 ∧ d ≤ cfg.period) ∨
    (∃ l, cc.kind = .level l ∧ cfg.resetDuty c = cfg.levelDuty l ∧ cfg.resetLevel c = l ∧ l ≤ 10) ∨
    (cc.kind = .fade ∧ cfg.resetDuty c = (if c = .ch0 then cfg.period else 0) ∧ cfg.resetLevel c = 0) := by
  obtain ⟨k, m⟩ := cc
  cases k with
  | duty d =>
    exact .inl ⟨d, rfl, by simp [resetDuty, hc], by simp [resetLevel, hc],
      wellFormed_duty_init h hc⟩
  | level l =>
    exact .inr (.inl ⟨l, rfl, by simp [resetDuty, hc], by simp [resetLevel, hc],
      wellFormed_level_init h hc⟩)
  | fade => exact .inr (.inr ⟨rfl, by simp [resetDuty, hc], by simp [resetLevel, hc]⟩)

theorem resetDuty_le (h : cfg.wellFormed = true) (c : Chan) : cfg.resetDuty c ≤ cfg.period := by
  cases hc : cfg.chan? c with
  | none => simp [resetDuty, hc]
  | some cc =>
    obtain ⟨d, -, hd, -, hle⟩ | ⟨l, -, hd, -, hle⟩ | ⟨-, hd, -⟩ := reset_cases h hc
    · omega
    · rw [hd]; exact (levelTable_get h hle).2
    · rw [hd]; split <;> omega

theorem resetLevel_le (h : cfg.wellFormed = true) (c : Chan) : cfg.resetLevel c ≤ 10 := by
  cases hc : cfg.chan? c with
  | none => simp [resetLevel, hc]
  | some cc =>
    obtain ⟨d, -, -, hl, -⟩ | ⟨l, -, -, hl, hle⟩ | ⟨-, -, hl⟩ := reset_cases h hc <;> omega

end

end Config

end Sys2Proof

namespace Sys2Proof.Machine

section
variable {cfg : Config}

@[simp] theorem State.resetOf_cfg : (State.resetOf cfg).cfg = cfg := rfl

@[simp] theorem State.resetOf_out (c : Chan) : (State.resetOf cfg).out c = cfg.resetOut c := by
  simp [State.resetOf, State.out]

@[simp] theorem State.resetOf_duty (c : Chan) : (State.resetOf cfg).duty c = BitVec.ofNat 16 (cfg.resetDuty c) := by
  simp [State.resetOf, State.duty]

@[simp] theorem State.resetOf_level (c : Chan) :
    (State.resetOf cfg).level c = BitVec.ofNat 16 (cfg.resetLevel c) := by
  simp [State.resetOf, State.level]

@[simp] theorem State.resetOf_fivl : (State.resetOf cfg).fivl = BitVec.ofNat 16 cfg.resetFivl := rfl

/-! The start values are stored whole. -/

theorem State.resetOf_duty_toNat (h : cfg.wellFormed = true) (c : Chan) :
    ((State.resetOf cfg).duty c).toNat = cfg.resetDuty c := by
  obtain ⟨-, hperiod, -⟩ := Config.wellFormed_sizes h
  have hle := Config.resetDuty_le h c
  rw [State.resetOf_duty, BitVec.toNat_ofNat, Nat.mod_eq_of_lt (by omega)]

theorem State.resetOf_level_toNat (h : cfg.wellFormed = true) (c : Chan) :
    ((State.resetOf cfg).level c).toNat = cfg.resetLevel c := by
  have hle := Config.resetLevel_le h c
  rw [State.resetOf_level, BitVec.toNat_ofNat, Nat.mod_eq_of_lt (by omega)]

theorem State.resetOf_fivl_toNat {p : FadeCfg} (h : cfg.wellFormed = true) (hp : cfg.fade = some p) :
    (State.resetOf cfg).fivl.toNat = p.ivlInit := by
  obtain ⟨-, -, -, -, hinit, hmax, -⟩ := Config.wellFormed_fade h hp
  have hfivl : cfg.resetFivl = p.ivlInit := by simp [Config.resetFivl, hp]
  rw [State.resetOf_fivl, hfivl, BitVec.toNat_ofNat, Nat.mod_eq_of_lt (by omega)]

/-- With a fade sequencer red starts at PERIOD and the others at 0 (R31). -/
theorem State.resetOf_fade_duty {p : FadeCfg} (h : cfg.wellFormed = true) (hp : cfg.fade = some p) (c : Chan) :
    ((State.resetOf cfg).duty c).toNat = if c = .ch0 then cfg.period else 0 := by
  obtain ⟨m, hm⟩ := Config.wellFormed_fade_chan h hp c
  rw [State.resetOf_duty_toNat h]
  simp [Config.resetDuty, hm]

theorem State.resetOf_fadeInv {p : FadeCfg} (h : cfg.wellFormed = true) (hp : cfg.fade = some p) :
    (State.resetOf cfg).FadeInv p := by
  obtain ⟨-, hstep, hdvd, hpos, hinit, -⟩ := Config.wellFormed_fade h hp
  have hred := State.resetOf_fade_duty h hp .ch0
  have hgreen := State.resetOf_fade_duty h hp .ch1
  have hblue := State.resetOf_fade_duty h hp .ch2
  have hfivl := State.resetOf_fivl_toNat h hp
  simp only [if_true, reduceCtorEq, if_false] at hred hgreen hblue
  have hphase : (State.resetOf cfg).phase = .redToGreen := rfl
  constructor <;> simp only [hphase, Phase.falling, Phase.rising, Phase.other, State.resetOf_cfg, hred, hgreen, hfivl]
  · exact BitVec.eq_of_toNat_eq hblue
  · exact Nat.add_zero _
  · exact hstep
  · exact hdvd
  · exact hpos
  · exact Nat.le_refl _
  · exact hinit

/-- The reset state of a well-formed configuration satisfies the invariants of R22 (R191). -/
theorem State.resetOf_inv (h : cfg.wellFormed = true) : (State.resetOf cfg).Inv where
  config := h
  cnt_lt_period := (Config.wellFormed_sizes h).1
  chan c cc hcc := by
    have hlevel := State.resetOf_level_toNat h c
    have hduty := State.resetOf_duty_toNat h c
    refine ⟨hduty.trans_le (Config.resetDuty_le h c), fun hk => ?_, fun hk => ?_⟩
    · obtain ⟨d, hd, -⟩ | ⟨l, -, hd, hl, hle⟩ | ⟨hd, -⟩ := Config.reset_cases h hcc
      · rw [hd] at hk; cases hk
      · rw [hlevel, hduty, hl, hd]; exact ⟨hle, rfl⟩
      · rw [hd] at hk; cases hk
    · obtain ⟨d, -, -, hl, -⟩ | ⟨l, hd, -⟩ | ⟨-, -, hl⟩ := Config.reset_cases h hcc
      · exact BitVec.eq_of_toNat_eq (hlevel.trans hl)
      · rw [hd] at hk; cases hk
      · exact BitVec.eq_of_toNat_eq (hlevel.trans hl)
  fade_seq p hp := State.resetOf_fadeInv h hp
  dbc_le i _ := by simp [State.resetOf, State.dbc]
  err_bits := by simp [State.resetOf]
  chan_absent c hc := by
    have hc' : cfg.chan? c = none := hc
    simp [State.resetOf, ChanState.absent, Config.resetOut, Config.resetDuty, Config.resetLevel, hc']
  site_absent i hi := by
    have hi' : cfg.site? i = none := hi
    simp [State.resetOf, SiteState.absent, Config.resetPinl, Config.resetEsel, Config.resetIe, hi']
  fade_absent hf := by
    have hf' : cfg.fade = none := hf
    simp [State.resetOf, FadeState.absent, Config.resetFivl, hf']

/-- No site is pending at reset (R35). -/
@[simp] theorem State.resetOf_pend (i : Site) : (State.resetOf cfg).pend i = false := by
  simp [State.resetOf, State.pend]

end

end Sys2Proof.Machine
end

section
/-! The obligations on the configuration, the reset and the step. -/

namespace Sys2Proof.Machine

/-- Settles O1: the step takes the word, and a word that decodes is its operation. -/
theorem stepRunsDecodedOperation : Obligations.StepRunsDecodedOperation := by
  intro s w rest i hwf hs hi
  rw [step_of_stream hwf hs, runWord_of_ok hi]

/-- Settles O2: the step takes the word, and the run of it is the fault entry of code 1. -/
theorem stepRefusesIllegalWord : Obligations.StepRefusesIllegalWord := by
  intro s w rest e hwf hs he
  exact ⟨_, (step_of_stream hwf hs).trans (runWord_illegal he _), rfl, rfl⟩

/-- Settles O3: no word is taken and the state is answered as it is. -/
theorem stepWaitsForAnOperation : Obligations.StepWaitsForAnOperation := fun _ hwf hs => step_of_empty hwf hs

/-- Settles O4: boot and step both ask the check of the configuration first. -/
theorem illFormedConfigurationHasNoRun : Obligations.IllFormedConfigurationHasNoRun :=
  ⟨fun cfg h => by simp [State.boot, h], fun cfg h => by simp [State.boot, h], fun _ h => step_of_illFormed h⟩

/-- Settles O5: each part of the check is its item of R13. -/
theorem wellFormedConfigurationCharacterised : Obligations.WellFormedConfigurationCharacterised := by
  intro cfg
  simp only [cfg.wellFormed_iff_parts, cfg.sizesOk_iff, cfg.fadeChannelsOk_iff, cfg.fadeParamsOk_iff,
    cfg.startValuesOk_iff, cfg.siteOk_iff, and_assoc]

/-- Settles O13: the fault entry answers FAULT(c), everything else OK, and only a RD carries data. -/
theorem everyOperationAnswersOneResponse : Obligations.EveryOperationAnswersOneResponse := by
  refine ⟨Response.word_ok_toNat, Response.word_fault_toNat, fun s w => ?_⟩
  have hrun := runWord_eq_afterWord s w
  obtain ⟨c, hraise⟩ | ⟨x, hresp, -, hdata⟩ := runWord_resp_cases hrun
  · rw [hraise] at hrun
    exact ⟨_, _, hrun, rfl, rfl, nofun⟩
  · refine ⟨_, _, hrun, hresp, by rw [State.hostPort, hresp]; rfl, fun y hy => ?_⟩
    cases hy
    exact hdata

/-- Settles O16: the start value of each kind of channel, and of each site, stored whole. -/
theorem resetValues : Obligations.ResetValues := by
  intro cfg h
  refine ⟨rfl, rfl, fun c d m hc => ?_, fun c l m hc => ?_, fun hf => ?_, fun c _ => ?_, fun i sc hi => ?_,
    fun p hp => ⟨rfl, rfl, State.resetOf_fivl_toNat h hp⟩⟩
  · rw [State.resetOf_duty_toNat h, State.resetOf_level]
    simp [Config.resetDuty, Config.resetLevel, hc]
  · have hentry := (Config.levelTable_get h (Config.wellFormed_level_init h hc)).1
    rw [State.resetOf_duty_toNat h, State.resetOf_level_toNat h]
    simpa [Config.resetDuty, Config.resetLevel, hc] using hentry
  · obtain ⟨p, hp⟩ := Option.isSome_iff_exists.mp hf
    have hduty := State.resetOf_fade_duty h hp
    refine ⟨hduty .ch0, BitVec.eq_of_toNat_eq (hduty .ch1), BitVec.eq_of_toNat_eq (hduty .ch2), fun c => ?_⟩
    obtain ⟨m, hm⟩ := Config.wellFormed_fade_chan h hp c
    rw [State.resetOf_level]
    simp [Config.resetLevel, hm]
  · have hzero : (State.resetOf cfg).duty c = 0 ↔ cfg.resetDuty c = 0 := by
      rw [← State.resetOf_duty_toNat h]
      exact BitVec.toNat_inj.symm
    rw [State.resetOf_out, Config.resetOut]
    simp only [ne_eq, hzero]
  · simp [State.resetOf, State.pend, State.pinl, State.esel, State.ie, State.dbc, Config.resetPinl, Config.resetEsel,
      Config.resetIe, hi]

/-- Settles O17: the start values meet the invariants, and no event is pending. -/
theorem resetSatisfiesInvariants : Obligations.ResetSatisfiesInvariants :=
  fun _ h => ⟨State.resetOf_inv h, fun i _ => by rw [State.svcEnabled, State.resetOf_pend]; rfl⟩

/-- Settles O18: LED2 is well formed. -/
theorem bootStateSatisfiesInvariants : Obligations.BootStateSatisfiesInvariants :=
  State.resetOf_inv (cfg := Config.led2) (by decide)

/-- Settles O20: no operation writes the configuration, and waiting changes nothing. -/
theorem stepKeepsConfiguration : Obligations.StepKeepsConfiguration := by
  intro s t h
  obtain ⟨-, ⟨-, rfl⟩ | ⟨w, rest, -, hrun⟩⟩ := step_cases h
  · rfl
  · have hcfg : t.cfg = State.cfg { s with stream := rest } := runWord_cfg hrun
    exact hcfg

/-- Settles O22: the fault entry only sets a bit of ERR, and everything that answers OK leaves ERR. -/
theorem errIsSticky : Obligations.ErrIsSticky := by
  intro s t w h
  obtain ⟨c, rfl⟩ | ⟨x, -, herr, -⟩ := runWord_resp_cases h
  · refine ⟨?_, nofun⟩
    rw [State.raise_err]
    ext k hk
    simp +contextual
  · rw [herr]
    exact ⟨BitVec.and_self, fun _ _ => rfl⟩

end Sys2Proof.Machine
end

section
/-! SUPPORT. Which operation writes which element: one inversion lemma for each part of the state (10_state.md R28 to
R42). -/

namespace Sys2Proof.Machine

theorem State.sameSite_of_sites_eq {s t : State} (h : t.sites = s.sites) (j : Site) : s.SameSite t j := by
  simp [State.SameSite, State.pend, State.pinl, State.esel, State.ie, State.dbc, h]

theorem State.SameSite.refl (s : State) (j : Site) : s.SameSite s j := ⟨rfl, rfl, rfl, rfl, rfl⟩

section
variable (s : State) (sc : SiteCfg) (j : Site)

/-! The update of a serviced site writes no site. -/

@[simp] theorem State.applyUpdate_pend : (s.applyUpdate sc).pend j = s.pend j := by simp [State.pend]
@[simp] theorem State.applyUpdate_pinl : (s.applyUpdate sc).pinl j = s.pinl j := by simp [State.pinl]
@[simp] theorem State.applyUpdate_esel : (s.applyUpdate sc).esel j = s.esel j := by simp [State.esel]
@[simp] theorem State.applyUpdate_ie : (s.applyUpdate sc).ie j = s.ie j := by simp [State.ie]
@[simp] theorem State.applyUpdate_dbc : (s.applyUpdate sc).dbc j = s.dbc j := by simp [State.dbc]

end

section
variable {s t : State} {i : Instr}

/-- CNT and OUT are TICK's (R28, R30). -/
theorem exec_keeps_cnt_out (h : exec i s = .next t) (hi : i ≠ .tick) : t.cnt = s.cnt ∧ ∀ c, t.out c = s.out c := by
  cases i with
  | tick => exact absurd rfl hi
  | ftick =>
    obtain ⟨-, rfl⟩ | ⟨p, -, -, rfl⟩ | ⟨p, -, -, rfl⟩ := execFtick_cases h
    · exact ⟨rfl, fun _ => rfl⟩
    · exact ⟨s.fadeTick_cnt p, fun c => s.fadeTick_out p c⟩
    · exact ⟨rfl, fun _ => rfl⟩
  | pin n v =>
    obtain ⟨-, rfl⟩ | ⟨i, sc, -, -, -, rfl⟩ | ⟨i, sc, -, -, -, rfl⟩ := execPin_cases h <;> exact ⟨rfl, fun _ => rfl⟩
  | svc n =>
    obtain ⟨-, rfl⟩ | ⟨i, sc, -, -, -, rfl⟩ | ⟨i, sc, -, -, -, rfl⟩ := execSvc_cases h
    · exact ⟨rfl, fun _ => rfl⟩
    · exact ⟨s.applyUpdate_cnt sc, fun c => s.applyUpdate_out sc c⟩
    · exact ⟨rfl, fun _ => rfl⟩
  | rd n => obtain ⟨-, rfl⟩ | ⟨r, -, -, rfl⟩ := execRd_cases h <;> exact ⟨rfl, fun _ => rfl⟩
  | wr n x =>
    obtain ⟨-, rfl⟩ | ⟨r, c, -, -, -, rfl⟩ | ⟨r, -, -, -, rfl⟩ := execWr_cases h
    · exact ⟨rfl, fun _ => rfl⟩
    · exact ⟨rfl, fun _ => rfl⟩
    · obtain ⟨-, -, hcnt, -, -⟩ := s.writeReg_frame x r
      exact ⟨hcnt, s.writeReg_out x r⟩

/-- The fade sequencer is FTICK's (R40 to R42). -/
theorem exec_keeps_fade (h : exec i s = .next t) (hi : i ≠ .ftick) : t.fade = s.fade := by
  cases i with
  | tick => cases h; rfl
  | ftick => exact absurd rfl hi
  | pin n v =>
    obtain ⟨-, rfl⟩ | ⟨i, sc, -, -, -, rfl⟩ | ⟨i, sc, -, -, -, rfl⟩ := execPin_cases h <;> rfl
  | svc n =>
    obtain ⟨-, rfl⟩ | ⟨i, sc, -, -, -, rfl⟩ | ⟨i, sc, -, -, -, rfl⟩ := execSvc_cases h
    · rfl
    · exact s.applyUpdate_fade sc
    · rfl
  | rd n => obtain ⟨-, rfl⟩ | ⟨r, -, -, rfl⟩ := execRd_cases h <;> rfl
  | wr n x =>
    obtain ⟨-, rfl⟩ | ⟨r, c, -, -, -, rfl⟩ | ⟨r, -, -, -, rfl⟩ := execWr_cases h
    · rfl
    · rfl
    · cases r <;> rfl

/-- What an operation can do to the elements of site `j` (R35 to R39). -/
theorem exec_site_cases (h : exec i s = .next t) (j : Site) :
    s.SameSite t j ∨
    (i = .tick ∧ t.pend j = s.pend j ∧ t.pinl j = s.pinl j ∧ t.esel j = s.esel j ∧ t.ie j = s.ie j) ∨
    (∃ v, i = .pin j.num v ∧ (t.pend j = true ∨ t.pend j = s.pend j) ∧ t.esel j = s.esel j ∧ t.ie j = s.ie j) ∨
    (i = .svc j.num ∧ t.pend j = false ∧ t.pinl j = s.pinl j ∧ t.esel j = s.esel j ∧ t.ie j = s.ie j ∧
      t.dbc j = s.dbc j) ∨
    (∃ x, i = .wr (0x08 + j.num) x ∧ t.pend j = s.pend j ∧ t.pinl j = s.pinl j ∧ t.dbc j = s.dbc j) := by
  cases i with
  | tick =>
    cases h
    exact .inr (.inl ⟨rfl, s.ticked_pend j, s.ticked_pinl j, s.ticked_esel j, s.ticked_ie j⟩)
  | ftick =>
    obtain ⟨-, rfl⟩ | ⟨p, -, -, rfl⟩ | ⟨p, -, -, rfl⟩ := execFtick_cases h
    · exact .inl (.refl s j)
    · exact .inl (State.sameSite_of_sites_eq (s.fadeTick_sites p) j)
    · exact .inl (.refl s j)
  | pin n v =>
    obtain ⟨-, rfl⟩ | ⟨k, sc, rfl, -, -, rfl⟩ | ⟨k, sc, rfl, -, -, rfl⟩ := execPin_cases h
    · exact .inl (.refl s j)
    · by_cases hj : j = k
      · subst hj
        exact .inr (.inr (.inl
          ⟨v, rfl, by simp [State.latchEdge], by simp [State.latchEdge], by simp [State.latchEdge]⟩))
      · exact .inl (by simp [State.SameSite, State.latchEdge, hj])
    · by_cases hj : j = k
      · subst hj
        exact .inr (.inr (.inl ⟨v, rfl, by simp, by simp, by simp⟩))
      · exact .inl (by simp [State.SameSite, hj])
  | svc n =>
    obtain ⟨-, rfl⟩ | ⟨k, sc, rfl, -, -, rfl⟩ | ⟨k, sc, -, -, -, rfl⟩ := execSvc_cases h
    · exact .inl (.refl s j)
    · by_cases hj : j = k
      · subst hj
        exact .inr (.inr (.inr (.inl ⟨rfl, by simp, by simp, by simp, by simp, by simp⟩)))
      · exact .inl (by simp [State.SameSite, hj])
    · exact .inl (.refl s j)
  | rd n =>
    obtain ⟨-, rfl⟩ | ⟨r, -, -, rfl⟩ := execRd_cases h
    · exact .inl (.refl s j)
    · exact .inl (.refl s j)
  | wr n x =>
    obtain ⟨-, rfl⟩ | ⟨r, c, -, -, -, rfl⟩ | ⟨r, rfl, -, hok, rfl⟩ := execWr_cases h
    · exact .inl (.refl s j)
    · exact .inl (.refl s j)
    · obtain ⟨k, rfl, -⟩ | ⟨c, rfl, -⟩ | ⟨c, rfl, -⟩ := writeFault_eq_none hok
      · by_cases hj : j = k
        · subst hj
          exact .inr (.inr (.inr (.inr
            ⟨x, rfl, s.writeReg_pend x _ j, s.writeReg_pinl x _ j, s.writeReg_dbc x _ j⟩)))
        · exact .inl (s.writeReg_siteCfg_sameSite x hj)
      · exact .inl (s.writeReg_duty_sameSite x c j)
      · exact .inl (s.writeReg_level_sameSite x c j)

/-- What can write the duty register and the level index of channel `c` (R31, R32). -/
theorem exec_chan_cases (h : exec i s = .next t) (c : Chan) :
    (t.duty c = s.duty c ∧ t.level c = s.level c) ∨
    (i = .ftick ∧ ∃ p, s.cfg.fade = some p) ∨
    (∃ j sc, i = .svc j.num ∧ s.cfg.site? j = some sc ∧ sc.target = some c ∧
      (s.cfg.isDutyChan c = true ∨ s.cfg.isLevelChan c = true)) ∨
    (s.cfg.isDutyChan c = true ∧ ∃ x, i = .wr (0x10 + c.num) x) ∨
    (s.cfg.isLevelChan c = true ∧ ∃ x, i = .wr (0x14 + c.num) x) := by
  cases i with
  | tick => cases h; exact .inl ⟨s.ticked_duty c, s.ticked_level c⟩
  | ftick =>
    obtain ⟨-, rfl⟩ | ⟨p, hp, -⟩ | ⟨p, hp, -⟩ := execFtick_cases h
    · exact .inl ⟨rfl, rfl⟩
    · exact .inr (.inl ⟨rfl, p, hp⟩)
    · exact .inr (.inl ⟨rfl, p, hp⟩)
  | pin n v =>
    obtain ⟨-, rfl⟩ | ⟨k, sc, -, -, -, rfl⟩ | ⟨k, sc, -, -, -, rfl⟩ := execPin_cases h <;> exact .inl ⟨rfl, rfl⟩
  | svc n =>
    obtain ⟨-, rfl⟩ | ⟨k, sc, rfl, hk, -, rfl⟩ | ⟨k, sc, -, -, -, rfl⟩ := execSvc_cases h
    · exact .inl ⟨rfl, rfl⟩
    · obtain ⟨d, ht, hd, heq⟩ | ⟨d, ht, hd, heq⟩ | ⟨-, heq⟩ := s.applyUpdate_cases sc
      · by_cases hcd : c = d
        · subst hcd
          exact .inr (.inr (.inl ⟨k, sc, rfl, hk, ht, .inl hd⟩))
        · exact .inl (by simp [heq, hcd])
      · by_cases hcd : c = d
        · subst hcd
          exact .inr (.inr (.inl ⟨k, sc, rfl, hk, ht, .inr hd⟩))
        · exact .inl (by simp [heq, hcd])
      · exact .inl (by simp [heq])
    · exact .inl ⟨rfl, rfl⟩
  | rd n => obtain ⟨-, rfl⟩ | ⟨r, -, -, rfl⟩ := execRd_cases h <;> exact .inl ⟨rfl, rfl⟩
  | wr n x =>
    obtain ⟨-, rfl⟩ | ⟨r, c, -, -, -, rfl⟩ | ⟨r, rfl, -, hok, rfl⟩ := execWr_cases h
    · exact .inl ⟨rfl, rfl⟩
    · exact .inl ⟨rfl, rfl⟩
    · obtain ⟨k, rfl, -⟩ | ⟨d, rfl, hd, -⟩ | ⟨d, rfl, hd, -⟩ := writeFault_eq_none hok
      · exact .inl ⟨rfl, rfl⟩
      · by_cases hcd : c = d
        · subst hcd
          exact .inr (.inr (.inr (.inl ⟨hd, x, rfl⟩)))
        · exact .inl (s.writeReg_duty_sameChan x hcd).2
      · by_cases hcd : c = d
        · subst hcd
          exact .inr (.inr (.inr (.inr ⟨hd, x, rfl⟩)))
        · exact .inl (s.writeReg_level_sameChan x hcd).2

end

/-- A DUTY or LEVEL channel is not FADE. -/
theorem isFade_eq_false_of_target {cfg : Config} {c : Chan} {cc : ChanCfg} (hc : cfg.chan? c = some cc)
    (h : cfg.isDutyChan c = true ∨ cfg.isLevelChan c = true) : cc.kind.isFade = false := by
  obtain h | h := h
  · obtain ⟨d, m, hm⟩ := Config.isDutyChan_iff.mp h
    obtain rfl : (⟨.duty d, m⟩ : ChanCfg) = cc := by simpa [hm] using hc
    rfl
  · obtain ⟨l, m, hm⟩ := Config.isLevelChan_iff.mp h
    obtain rfl : (⟨.level l, m⟩ : ChanCfg) = cc := by simpa [hm] using hc
    rfl

end Sys2Proof.Machine
end

section
/-! The obligations on the writers of the elements. -/

namespace Sys2Proof.Machine

/-- Settles O58: the four writers of a channel's registers, each against the channel's kind. -/
theorem dutyRegisterWriters : Obligations.DutyRegisterWriters := by
  intro s t w c cc hinv hcc hrun hchanged
  obtain ⟨e, -, rfl⟩ | ⟨i, hi, hexec⟩ := runWord_cases hrun
  · simp at hchanged
  · obtain ⟨hduty, hlevel⟩ | ⟨rfl, p, hp⟩ | ⟨j, sc, rfl, hj, ht, hkind⟩ | ⟨hkind, x, rfl⟩ | ⟨hkind, x, rfl⟩ :=
      exec_chan_cases hexec c
    · simp [hduty, hlevel] at hchanged
    · obtain ⟨m, hm⟩ := Config.wellFormed_fade_chan hinv.config hp c
      obtain rfl : (⟨.fade, m⟩ : ChanCfg) = cc := by simpa [hm] using hcc
      exact .inr (.inr (.inr ⟨rfl, hi⟩))
    · exact .inl ⟨j, sc, hj, ht, hi, isFade_eq_false_of_target hcc hkind⟩
    · exact .inr (.inl ⟨by simpa [Config.isDutyChan, hcc] using hkind, x, hi⟩)
    · exact .inr (.inr (.inl ⟨by simpa [Config.isLevelChan, hcc] using hkind, x, hi⟩))

/-- Settles O59: each element against the operations that leave it; only the overflow sets OUT. -/
theorem elementWriters : Obligations.ElementWriters := by
  intro s t w hrun
  obtain ⟨e, -, rfl⟩ | ⟨i, hi, hexec⟩ := runWord_cases hrun
  · simp
  rw [hi]
  refine ⟨fun hcnt => ?_, fun c hout => ?_, fun hfade => ?_, fun j hpend => ?_, fun j hpinl => ?_, fun j hdbc => ?_,
    fun j hcfg => ?_⟩
  · by_contra htick
    exact hcnt (exec_keeps_cnt_out hexec (by simpa using htick)).1
  · have htick : i = .tick := by
      by_contra htick
      exact hout ((exec_keeps_cnt_out hexec htick).2 c)
    subst htick
    cases hexec
    refine ⟨rfl, fun hset => ?_⟩
    by_contra hn
    have hlow : s.out c = false := by
      rw [hset] at hout
      simpa using hout.symm
    have hstays : s.ticked.out c = false := State.ticked_out_low hn hlow
    exact absurd (hstays.symm.trans hset) (by decide)
  · by_contra hftick
    exact hfade (exec_keeps_fade hexec (by simpa using hftick))
  · obtain ⟨hsame, -⟩ | ⟨-, hsame, -⟩ | ⟨v, rfl, hset | hsame, -⟩ | ⟨rfl, hclear, -⟩ | ⟨x, -, hsame, -⟩ :=
      exec_site_cases hexec j
    · exact absurd hsame hpend
    · exact absurd hsame hpend
    · exact .inl ⟨hset, v, rfl⟩
    · exact absurd hsame hpend
    · exact .inr ⟨hclear, rfl⟩
    · exact absurd hsame hpend
  · obtain ⟨-, hsame, -⟩ | ⟨-, -, hsame, -⟩ | ⟨v, rfl, -⟩ | ⟨-, -, hsame, -⟩ | ⟨x, -, -, hsame, -⟩ :=
      exec_site_cases hexec j
    · exact absurd hsame hpinl
    · exact absurd hsame hpinl
    · exact ⟨v, rfl⟩
    · exact absurd hsame hpinl
    · exact absurd hsame hpinl
  · obtain ⟨-, -, -, -, hsame⟩ | ⟨rfl, -⟩ | ⟨v, rfl, -⟩ | ⟨-, -, -, -, -, hsame⟩ | ⟨x, -, -, -, hsame⟩ :=
      exec_site_cases hexec j
    · exact absurd hsame hdbc
    · exact .inl rfl
    · exact .inr ⟨v, rfl⟩
    · exact absurd hsame hdbc
    · exact absurd hsame hdbc
  · obtain ⟨-, -, hesel, hie, -⟩ | ⟨-, -, -, hesel, hie⟩ | ⟨v, -, -, hesel, hie⟩ | ⟨-, -, -, hesel, hie, -⟩ |
      ⟨x, rfl, -⟩ := exec_site_cases hexec j
    · simp [hesel, hie] at hcfg
    · simp [hesel, hie] at hcfg
    · simp [hesel, hie] at hcfg
    · simp [hesel, hie] at hcfg
    · exact ⟨x, rfl⟩

end Sys2Proof.Machine
end

section
/-! SUPPORT. The answers of FTICK (43_fade.md R133, R135), and of PIN and SVC for a site that exists and one that does
not (41_edge.md R96 to R112). -/

namespace Sys2Proof.Machine

section
variable {s : State} {i : Site}

theorem exec_ftick_absent (hf : s.cfg.fade = none) : exec .ftick s = .next (s.complete 0) := by
  simp [exec, execFtick, hf]

theorem exec_ftick_fadeTick {p : FadeCfg} (hp : s.cfg.fade = some p) (hcount : s.fcnt.toNat + 1 = s.fivl.toNat) :
    exec .ftick s = .next ((s.fadeTick p).complete 0) := by
  simp [exec, execFtick, hp, hcount]

theorem exec_ftick_between {p : FadeCfg} (hp : s.cfg.fade = some p) (hcount : s.fcnt.toNat + 1 ≠ s.fivl.toNat) :
    exec .ftick s = .next ((s.setFcnt (BitVec.ofNat 16 (s.fcnt.toNat + 1))).complete 0) := by
  simp [exec, execFtick, hp, hcount]

theorem exec_pin_badIndex {n : Nat} (v : Bool) (hn : siteAt s.cfg n = none) :
    exec (.pin n v) s = .next (s.raise .badIndex) := by
  simp [exec, execPin, hn]

theorem exec_svc_badIndex {n : Nat} (hn : siteAt s.cfg n = none) : exec (.svc n) s = .next (s.raise .badIndex) := by
  simp [exec, execSvc, hn]

theorem exec_pin_accepted {v : Bool} (hi : s.cfg.hasSite i = true) (ha : s.acceptsEdge i v = true) :
    exec (.pin i.num v) s = .next (((s.setPinl i v).latchEdge i).complete 0) := by
  obtain ⟨sc, hsc⟩ := Config.site?_of_hasSite hi
  simp [exec, execPin, siteAt_num s.cfg i sc hsc, ha]

theorem exec_pin_not_accepted {v : Bool} (hi : s.cfg.hasSite i = true) (ha : s.acceptsEdge i v = false) :
    exec (.pin i.num v) s = .next ((s.setPinl i v).complete 0) := by
  obtain ⟨sc, hsc⟩ := Config.site?_of_hasSite hi
  simp [exec, execPin, siteAt_num s.cfg i sc hsc, ha]

theorem exec_svc_enabled {sc : SiteCfg} (hi : s.cfg.site? i = some sc) (he : s.svcEnabled i = true) :
    exec (.svc i.num) s = .next (((s.applyUpdate sc).setPend i false).complete 0) := by
  simp [exec, execSvc, siteAt_num s.cfg i sc hi, he]

theorem State.svcEnabled_iff : s.svcEnabled i = true ↔ s.pend i = true ∧ s.ie i = true := by
  simp [State.svcEnabled]

/-- An SVC that answers OK is one that is carried out (R104). -/
theorem exec_svc_ok {t : State} {sc : SiteCfg} (hi : s.cfg.site? i = some sc) (h : exec (.svc i.num) s = .next t)
    (hok : t.resp = some (.ok 0)) : t = ((s.applyUpdate sc).setPend i false).complete 0 := by
  cases he : s.svcEnabled i with
  | true =>
    rw [exec_svc_enabled hi he] at h
    cases h
    rfl
  | false =>
    rw [exec_svc_not_enabled (Config.hasSite_of_site? hi) he] at h
    cases h
    cases hok

/-- What an SVC that is carried out leaves as it was (R104). -/
theorem State.serviced_frame (s : State) (i : Site) (sc : SiteCfg) :
    let t := ((s.applyUpdate sc).setPend i false).complete 0
    (t.pend i = false ∧ t.pinl i = s.pinl i ∧ t.esel i = s.esel i ∧ t.ie i = s.ie i ∧ t.dbc i = s.dbc i) ∧
      (∀ j, j ≠ i → s.SameSite t j) ∧ (∀ c, t.out c = s.out c) ∧ s.SameFade t ∧ s.SameEnv t ∧ t.cnt = s.cnt ∧
      t.err = s.err ∧ t.resp = some (.ok 0) := by
  have hfade := s.applyUpdate_fade sc
  refine ⟨by simp, fun j hj => by simp [State.SameSite, hj], fun c => by simp,
    ⟨congrArg FadeState.fcnt hfade, congrArg FadeState.phase hfade, congrArg FadeState.fivl hfade⟩, by
    simp [State.SameEnv], by simp, by simp, rfl⟩

end

/-- The update by direction and policy (R100 to R102). -/
theorem upd_eq (sc : SiteCfg) (x : Int) :
    (sc.dir = .inc → sc.pol = .wrap → upd sc x = if x + sc.step > sc.max then sc.min else max (x + sc.step) sc.min) ∧
    (sc.dir = .dec → sc.pol = .wrap → upd sc x = if x - sc.step < sc.min then sc.max else min (x - sc.step) sc.max) ∧
    (sc.dir = .inc → sc.pol = .clamp → upd sc x = min (max (x + sc.step) sc.min) sc.max) ∧
    (sc.dir = .dec → sc.pol = .clamp → upd sc x = min (max (x - sc.step) sc.min) sc.max) := by
  refine ⟨?_, ?_, ?_, ?_⟩ <;> intro hdir hpol <;> simp [upd, clampInt, hdir, hpol]

/-- The update is stored whole when the bounds fit a register. -/
theorem upd_stored {sc : SiteCfg} (hmin : 0 ≤ sc.min) (hle : sc.min ≤ sc.max) (hmax : sc.max ≤ 65535) (x : Int) :
    ((BitVec.ofNat 16 (upd sc x).toNat).toNat : Int) = upd sc x := by
  obtain ⟨hlow, hhigh⟩ := upd_within hle x
  rw [BitVec.toNat_ofNat, Nat.mod_eq_of_lt (by omega), Int.toNat_of_nonneg (by omega)]

section
variable {s : State} {i : Site} {sc : SiteCfg} {c : Chan}

/-- The duty register after the update of a DUTY target. -/
theorem State.applyUpdate_duty_toNat (hwf : s.cfg.wellFormed = true) (hi : s.cfg.site? i = some sc)
    (ht : sc.target = some c) (hc : s.cfg.isDutyChan c = true) :
    (((s.applyUpdate sc).duty c).toNat : Int) = upd sc (s.duty c).toNat := by
  obtain ⟨hmin, hle, hmax⟩ := Config.wellFormed_duty_site hwf hi ht hc
  obtain ⟨-, hperiod, -⟩ := Config.wellFormed_sizes hwf
  rw [State.applyUpdate_duty ht hc, setDuty_duty, if_pos rfl, upd_stored hmin hle (by omega)]

/-- The level index after the update of a LEVEL target. -/
theorem State.applyUpdate_level_toNat (hwf : s.cfg.wellFormed = true) (hi : s.cfg.site? i = some sc)
    (ht : sc.target = some c) (hc : s.cfg.isLevelChan c = true) :
    (((s.applyUpdate sc).level c).toNat : Int) = upd sc (s.level c).toNat := by
  obtain ⟨hmin, hle, hmax⟩ := Config.wellFormed_level_site hwf hi ht hc
  rw [State.applyUpdate_level ht hc, setLevelAlias_level, if_pos rfl, upd_stored hmin hle (by omega)]

/-- The duty register after the update of a LEVEL target is the table's entry (R103, 10_state.md R25). -/
theorem State.applyUpdate_tableEntry (hwf : s.cfg.wellFormed = true) (hi : s.cfg.site? i = some sc)
    (ht : sc.target = some c) (hc : s.cfg.isLevelChan c = true) :
    s.cfg.levelTable[((s.applyUpdate sc).level c).toNat]? = some ((s.applyUpdate sc).duty c).toNat := by
  obtain ⟨hmin, hle, hmax⟩ := Config.wellFormed_level_site hwf hi ht hc
  obtain ⟨hlow, hhigh⟩ := upd_within hle (s.level c).toNat
  have hlevel := State.applyUpdate_level_toNat hwf hi ht hc
  have hstored := State.writeReg_level_tableEntry (s := s) c (x := (upd sc (s.level c).toNat).toNat) hwf (by omega)
  have hindex : ((s.applyUpdate sc).level c).toNat = (upd sc (s.level c).toNat).toNat := by omega
  rw [hindex, hstored, State.applyUpdate_level ht hc]
  rfl

/-- The other channel's registers are not the target's. -/
theorem State.applyUpdate_sameChan {d : Chan} (ht : sc.target = some c) (hd : d ≠ c) :
    s.SameChan (s.applyUpdate sc) d := by
  obtain ⟨e, he, -, heq⟩ | ⟨e, he, -, heq⟩ | ⟨-, heq⟩ := s.applyUpdate_cases sc
  · obtain rfl : c = e := by simpa [ht] using he
    simp [State.SameChan, heq, hd]
  · obtain rfl : c = e := by simpa [ht] using he
    simp [State.SameChan, heq, hd]
  · rw [heq]; exact ⟨rfl, rfl, rfl⟩

end

/-! Runs without a PIN of the site (R106), and runs of SVC. -/

/-- Without a PIN of the site an event that is not pending stays so. -/
theorem State.afterWord_pend_false {s : State} {i : Site} {w : OpWord} (hpend : s.pend i = false)
    (hw : ∀ v, decode w ≠ .ok (.pin i.num v)) : (s.afterWord w).pend i = false := by
  by_contra hset
  obtain ⟨-, -, -, hwriters, -⟩ := elementWriters s _ w (runWord_eq_afterWord s w)
  obtain ⟨-, v, hv⟩ | ⟨hclear, -⟩ := hwriters i (by rw [hpend]; exact hset)
  · exact hw v hv
  · exact hset hclear

theorem State.afterWords_pend_false {s : State} {i : Site} {ws : List OpWord} (hpend : s.pend i = false)
    (hws : ∀ w ∈ ws, ∀ v, decode w ≠ .ok (.pin i.num v)) : (s.afterWords ws).pend i = false := by
  induction ws generalizing s with
  | nil => exact hpend
  | cons w ws ih =>
    exact ih (State.afterWord_pend_false hpend (hws w List.mem_cons_self))
      fun w' hw' => hws w' (List.mem_cons_of_mem _ hw')

/-- After the word of an SVC its site is not enabled: carried out it clears PEND, refused it was not (R104). -/
theorem State.afterWord_svc_not_enabled {s : State} {i : Site} (hi : s.cfg.hasSite i = true) :
    (s.afterWord (encode (.svc i.num))).svcEnabled i = false := by
  obtain ⟨sc, hsc⟩ := Config.site?_of_hasSite hi
  have hwf : (Instr.svc i.num).wellFormed = true := by cases i <;> rfl
  rw [State.afterWord, runWord_of_ok (decode_encode hwf)]
  cases he : s.svcEnabled i with
  | true => rw [exec_svc_enabled hsc he]; simp [State.after, State.svcEnabled]
  | false => rw [exec_svc_not_enabled hi he]; exact he

/-- One step of the sawtooth below the upper bound, and the return from above it (R112). -/
theorem upd_wrap_inc {sc : SiteCfg} (hdir : sc.dir = .inc) (hpol : sc.pol = .wrap) {x : Int} (hx : sc.min ≤ x) :
    (x + sc.step ≤ sc.max → upd sc x = x + sc.step) ∧ (sc.max < x + sc.step → upd sc x = sc.min) := by
  rw [(upd_eq sc x).1 hdir hpol]
  constructor <;> intro h
  · rw [if_neg (by omega), max_eq_left (by omega)]
  · rw [if_pos h]

end Sys2Proof.Machine
end

section
/-! The obligations on PIN and SVC of 41_edge.md. -/

namespace Sys2Proof.Machine

/-- Settles O40: an edge in the selected direction without a lock-out is an accepted one. -/
theorem pinResultAndFrame : Obligations.PinResultAndFrame := by
  intro s i v hwf hi
  have hedge : (s.pinl i ≠ v ∧ ((s.esel i = .rising ∧ v = true) ∨ (s.esel i = .falling ∧ v = false))) ∧ s.dbc i = 0 ↔
      s.acceptsEdge i v = true := by rw [State.acceptsEdge_iff, qualifying_iff]
  cases ha : s.acceptsEdge i v with
  | true =>
    have hdbc := Config.dbWindow_toNat hwf
    refine ⟨_, exec_pin_accepted hi ha, by simp [State.latchEdge], ⟨fun _ => ?_, fun hno => ?_⟩,
      by simp [State.latchEdge], by simp [State.latchEdge], fun j hj => by simp [State.SameSite, State.latchEdge, hj],
      fun c => ⟨rfl, rfl, rfl⟩, ⟨rfl, rfl, rfl⟩, ⟨rfl, rfl⟩, rfl, rfl, rfl⟩
    · simp [State.latchEdge, hdbc]
    · exact absurd (hedge.mpr ha) hno
  | false =>
    refine ⟨_, exec_pin_not_accepted hi ha, by simp, ⟨fun hyes => ?_, fun _ => by simp⟩,
      by simp, by simp, fun j hj => by simp [State.SameSite, hj],
      fun c => ⟨rfl, rfl, rfl⟩, ⟨rfl, rfl, rfl⟩, ⟨rfl, rfl⟩, rfl, rfl, rfl⟩
    exact absurd (ha.symm.trans (hedge.mp hyes)) (by decide)

/-- Settles O41: the index names no site. -/
theorem badSiteIndexFaults : Obligations.BadSiteIndexFaults := by
  intro s n v hn
  have hsite : siteAt s.cfg n = none := siteAt_eq_none hn
  exact ⟨exec_pin_badIndex v hsite, exec_svc_badIndex hsite⟩

/-- Settles O42: the SVC is refused with the fault entry of code 9. -/
theorem svcNotEnabledFaults : Obligations.SvcNotEnabledFaults := by
  intro s i hi hoff
  have he : s.svcEnabled i = false := by simpa [State.svcEnabled, ← not_and, or_iff_not_imp_left] using hoff
  exact exec_svc_not_enabled hi he

/-- Settles O43: the duty register holds the update, stored whole since the bounds fit PERIOD. -/
theorem svcUpdatesDuty : Obligations.SvcUpdatesDuty := by
  intro s i sc c hwf hi ht hc hpend hie
  obtain ⟨⟨h1, h2, h3, h4, h5⟩, hsites, hout, hfade, henv, hcnt, herr, hresp⟩ := s.serviced_frame i sc
  refine ⟨_, exec_svc_enabled hi (State.svcEnabled_iff.mpr ⟨hpend, hie⟩), ?_, h1, h2, h3, h4, h5, hsites, hout c, ?_,
    fun d hd => State.applyUpdate_sameChan ht hd, hfade, henv, hcnt, herr, hresp⟩
  · have hy := State.applyUpdate_duty_toNat hwf hi ht hc
    simp only [State.complete_duty, State.setPend_duty, hy]
    exact upd_eq sc _
  · simp [State.applyUpdate_duty ht hc]

/-- Settles O44: the level index holds the update, and the duty register its table entry. -/
theorem svcUpdatesLevel : Obligations.SvcUpdatesLevel := by
  intro s i sc c hwf hi ht hc hpend hie
  obtain ⟨⟨h1, h2, h3, h4, h5⟩, hsites, hout, hfade, henv, hcnt, herr, hresp⟩ := s.serviced_frame i sc
  refine ⟨_, exec_svc_enabled hi (State.svcEnabled_iff.mpr ⟨hpend, hie⟩), ?_,
    State.applyUpdate_tableEntry hwf hi ht hc, h1, h2, h3, h4, h5, hsites, hout c,
    fun d hd => State.applyUpdate_sameChan ht hd, hfade, henv, hcnt, herr, hresp⟩
  have hy := State.applyUpdate_level_toNat hwf hi ht hc
  simp only [State.complete_level, State.setPend_level, hy]
  exact upd_eq sc _

/-- Settles O45: without a target the update writes nothing. -/
theorem svcWithoutTarget : Obligations.SvcWithoutTarget := by
  intro s i sc hi ht hpend hie
  obtain ⟨⟨h1, h2, h3, h4, h5⟩, hsites, -, hfade, henv, hcnt, herr, hresp⟩ := s.serviced_frame i sc
  refine ⟨_, exec_svc_enabled hi (State.svcEnabled_iff.mpr ⟨hpend, hie⟩), h1, h2, h3, h4, h5, hsites, fun c => ?_,
    hfade, henv, hcnt, herr, hresp⟩
  rw [State.applyUpdate_none ht]
  exact ⟨rfl, rfl, rfl⟩

/-- Settles O46: the update lands within the bounds, and they fit the register. -/
theorem svcLandsWithinBounds : Obligations.SvcLandsWithinBounds := by
  intro s t i sc c hwf hi ht hexec hok
  obtain rfl := exec_svc_ok hi hexec hok
  refine ⟨fun hc => ?_, fun hc => ?_⟩
  · obtain ⟨-, hle, -⟩ := Config.wellFormed_duty_site hwf hi ht hc
    have hy := State.applyUpdate_duty_toNat hwf hi ht hc
    simp only [State.complete_duty, State.setPend_duty, hy]
    exact upd_within hle _
  · obtain ⟨-, hle, -⟩ := Config.wellFormed_level_site hwf hi ht hc
    have hy := State.applyUpdate_level_toNat hwf hi ht hc
    simp only [State.complete_level, State.setPend_level, hy]
    exact upd_within hle _

/-- Settles O47: the SVC clears PEND, and only a PIN of the site sets it. -/
theorem edgeIsServicedOnce : Obligations.EdgeIsServicedOnce := by
  intro s t i ws hi hexec hok hws
  obtain ⟨sc, hsc⟩ := Config.site?_of_hasSite hi
  obtain rfl := exec_svc_ok hsc hexec hok
  obtain ⟨⟨hpend, -⟩, -, -, -, ⟨hcfg, -⟩, -⟩ := s.serviced_frame i sc
  have hstays := State.afterWords_pend_false hpend hws
  refine ⟨_, exec_svc_not_enabled ?_ (by rw [State.svcEnabled, hstays, Bool.false_and]), rfl⟩
  rw [State.afterWords_cfg, hcfg]
  exact hi

/-- Settles O48: each step adds `k` while the sum is within the bounds; the next one is past the upper bound. -/
theorem wrapSawtooth : Obligations.WrapSawtooth := by
  intro sc hdir hpol hstep hle
  have hpos : (0 : Int) < sc.step := by omega
  have climb : ∀ j : Nat, (j : Int) ≤ (sc.max - sc.min) / sc.step → (upd sc)^[j] sc.min = sc.min + j * sc.step := by
    intro j
    induction j with
    | zero => simp
    | succ j ih =>
      intro hj
      have hfits : ((j + 1 : Nat) : Int) * sc.step ≤ sc.max - sc.min := (Int.le_ediv_iff_mul_le hpos).mp hj
      have hsum : sc.min + j * sc.step + sc.step = sc.min + ((j + 1 : Nat) : Int) * sc.step := by push_cast; ring
      have hnonneg : (0 : Int) ≤ j * sc.step := by positivity
      rw [Function.iterate_succ_apply', ih (by omega), (upd_wrap_inc hdir hpol (by omega)).1 (by omega), hsum]
  refine ⟨climb, ?_⟩
  have hquot : 0 ≤ (sc.max - sc.min) / sc.step := Int.ediv_nonneg (by omega) hpos.le
  have hnat : (((sc.max - sc.min) / sc.step).toNat : Int) = (sc.max - sc.min) / sc.step := Int.toNat_of_nonneg hquot
  have hpast : sc.max - sc.min < ((sc.max - sc.min) / sc.step + 1) * sc.step := Int.lt_ediv_add_one_mul_self _ hpos
  have hnonneg : 0 ≤ (sc.max - sc.min) / sc.step * sc.step := by positivity
  rw [add_mul, one_mul] at hpast
  rw [Function.iterate_succ_apply', climb _ hnat.le, hnat]
  exact (upd_wrap_inc hdir hpol (by omega)).2 (by omega)

/-- Settles O49: a service enabled for ever would be delivered, and after its delivery it is not enabled. -/
theorem noServiceStaysEnabledForEver : Obligations.NoServiceStaysEnabledForEver := by
  intro s ops i n _ hfair hi
  by_contra hnever
  have halways : ∀ m, n ≤ m → (s.trace ops m).svcEnabled i = true := fun m hm =>
    Bool.eq_true_of_not_eq_false fun hoff => hnever ⟨m, hm, hoff⟩
  obtain ⟨m, hm, hop⟩ := hfair i n hi halways
  have hon := halways (m + 1) (by omega)
  rw [State.trace, hop, State.afterWord_svc_not_enabled (by rwa [State.trace_cfg])] at hon
  cases hon

end Sys2Proof.Machine
end

section
/-! SUPPORT. OUT of one channel over the rest of a period, whatever operations are interleaved (42_waveform.md R120 to
R129). -/

namespace Sys2Proof.Machine

/-- An operation word other than TICK's leaves CNT and OUT. -/
theorem State.afterWord_of_ne_tick (s : State) {w : OpWord} (hw : w ≠ encode .tick) :
    (s.afterWord w).cnt = s.cnt ∧ ∀ c, (s.afterWord w).out c = s.out c := by
  have hdecode : decode w ≠ .ok .tick := fun h => hw (encode_of_decode h).2.symm
  obtain ⟨hcnt, hout, -⟩ := elementWriters s _ w (runWord_eq_afterWord s w)
  exact ⟨by_contra fun hne => hdecode (hcnt hne), fun c => by_contra fun hne => hdecode (hout c hne).1⟩

theorem ticksAmong_succ (ops : Nat → OpWord) (n : Nat) :
    ticksAmong ops (n + 1) = ticksAmong ops n + if ops n = encode .tick then 1 else 0 := by
  rw [ticksAmong, List.range_succ, List.filter_append, List.length_append, ← ticksAmong]
  split <;> simp [*]

/-- What holds of the count and of OUT[c], and is kept by every TICK before the overflow, holds for the rest of the
period, whatever comes between the TICKs. -/
theorem State.trace_out_induction {s : State} {c : Chan} {ops : Nat → OpWord} {n : Nat} (P : Nat → Bool → Prop)
    (h : s.Inv) (hn : s.cnt.toNat + ticksAmong ops n < s.cfg.period) (start : P s.cnt.toNat (s.out c))
    (tick : ∀ m, m < n → (s.trace ops m).nextCount = (s.trace ops m).cnt.toNat + 1 →
      P (s.trace ops m).cnt.toNat ((s.trace ops m).out c) →
        P ((s.trace ops m).cnt.toNat + 1) ((s.trace ops m).ticked.out c)) :
    (s.trace ops n).cnt.toNat = s.cnt.toNat + ticksAmong ops n ∧
      P (s.cnt.toNat + ticksAmong ops n) ((s.trace ops n).out c) := by
  induction n with
  | zero => exact ⟨rfl, start⟩
  | succ n ih =>
    rw [ticksAmong_succ] at hn ⊢
    obtain ⟨hcnt, hout⟩ := ih (by omega) fun m hm => tick m (by omega)
    rw [State.trace]
    by_cases hop : ops n = encode .tick
    · rw [if_pos hop] at hn ⊢
      have hnext : (s.trace ops n).nextCount = (s.trace ops n).cnt.toNat + 1 :=
        State.nextCount_of_lt (by rw [State.trace_cfg]; omega)
      have hstep := tick n (by omega) hnext (by rwa [hcnt])
      have hwf : (s.trace ops n).cfg.wellFormed = true := (h.trace ops n).config
      rw [hop, State.afterWord_tick, State.ticked_cnt_toNat hwf, hnext]
      rw [hcnt] at hstep ⊢
      exact ⟨rfl, hstep⟩
    · obtain ⟨hcnt', hout'⟩ := (s.trace ops n).afterWord_of_ne_tick hop
      rw [if_neg hop, hcnt', hout']
      exact ⟨hcnt, hout⟩

/-- Before the overflow, a TICK of an output that is HIGH exactly below D keeps it so, in both modes (R121, R124). -/
theorem State.ticked_out_steady {s : State} {c : Chan} (hc : s.cfg.hasChan c = true)
    (hnext : s.nextCount = s.cnt.toNat + 1) (hout : s.out c = decide (s.cnt.toNat < (s.duty c).toNat)) :
    s.ticked.out c = decide (s.cnt.toNat + 1 < (s.duty c).toNat) := by
  have hn : s.nextCount ≠ 0 := by omega
  by_cases hbelow : s.cnt.toNat + 1 < (s.duty c).toNat
  · have hm : cmpMatch s.cfg.cmpMode s.nextCount (s.duty c).toNat = false := by
      rw [hnext]
      cases s.cfg.cmpMode <;> simp only [cmpMatch, decide_eq_false_iff_not] <;> omega
    rw [State.ticked_out_of_no_match hc hn hm, hout, decide_eq_true hbelow, decide_eq_true (by omega)]
  · rw [decide_eq_false hbelow]
    by_cases hat : s.cnt.toNat + 1 = (s.duty c).toNat
    · have hm : cmpMatch s.cfg.cmpMode s.nextCount (s.duty c).toNat = true := by
        rw [hnext, hat]
        cases s.cfg.cmpMode <;> simp [cmpMatch]
      exact State.ticked_out_of_match hc hn hm
    · exact State.ticked_out_low hn (hout.trans (decide_eq_false (by omega)))

/-- From a point of the period at which OUT[c] is HIGH exactly below D[c], it stays so while D[c] holds (R124, R129). -/
theorem State.trace_out_steady {s : State} {c : Chan} {ops : Nat → OpWord} {n : Nat} (h : s.Inv)
    (hc : s.cfg.hasChan c = true) (hout : s.out c = decide (s.cnt.toNat < (s.duty c).toNat))
    (hheld : ∀ m, m ≤ n → (s.trace ops m).duty c = s.duty c) (hn : s.cnt.toNat + ticksAmong ops n < s.cfg.period) :
    (s.trace ops n).cnt.toNat = s.cnt.toNat + ticksAmong ops n ∧
      (s.trace ops n).out c = decide (s.cnt.toNat + ticksAmong ops n < (s.duty c).toNat) := by
  refine State.trace_out_induction (fun k o => o = decide (k < (s.duty c).toNat)) h hn hout fun m hm hnext hk => ?_
  have hd : (s.trace ops m).duty c = s.duty c := hheld m (by omega)
  rw [← hd] at hk ⊢
  exact State.ticked_out_steady (by rwa [State.trace_cfg]) hnext hk

/-- At the overflow "D is not 0" says "the count 0 is below D". -/
theorem decide_ne_zero_eq (d : Word) : decide (d ≠ 0) = decide (0 < d.toNat) := by
  have hzero : d.toNat = 0 ↔ d = 0 := BitVec.toNat_inj (y := 0#16)
  simp only [ne_eq, ← hzero, Nat.pos_iff_ne_zero]

/-! A run of TICKs back to back as an infinite run. -/

theorem State.afterTicks_eq_trace (s : State) (k : Nat) : s.afterTicks k = s.trace (fun _ => encode .tick) k := by
  induction k with
  | zero => rfl
  | succ k ih =>
    have hlast : ∀ (u : State) (j : Nat), u.afterTicks (j + 1) = (u.afterTicks j).ticked := by
      intro u j
      induction j generalizing u with
      | zero => rfl
      | succ j ihj => rw [u.afterTicks_succ, ihj, u.afterTicks_succ]
    rw [hlast, ih, State.trace, State.afterWord_tick]

theorem ticksAmong_tick (n : Nat) : ticksAmong (fun _ => encode .tick) n = n := by
  simp [ticksAmong]

theorem State.trace_tick_duty (s : State) (c : Chan) (n : Nat) :
    (s.trace (fun _ => encode .tick) n).duty c = s.duty c := by
  induction n with
  | zero => rfl
  | succ n ih => rw [State.trace, State.afterWord_tick, State.ticked_duty, ih]

/-- The numbers below `n` that are below `d`, when `d` is at most `n`. -/
theorem length_filter_range_lt {d n : Nat} (h : d ≤ n) :
    ((List.range n).filter fun k => decide (k < d)).length = d := by
  obtain ⟨m, rfl⟩ := Nat.exists_eq_add_of_le h
  have hlow : (List.range d).filter (fun k => decide (k < d)) = List.range d :=
    List.filter_eq_self.mpr fun k hk => by simpa using hk
  have hhigh : ((List.range m).map (d + ·)).filter (fun k => decide (k < d)) = [] :=
    List.filter_eq_nil_iff.mpr fun k hk => by
      obtain ⟨j, -, rfl⟩ := List.mem_map.mp hk
      simp
  rw [List.range_add, List.filter_append, hlow, hhigh, List.append_nil, List.length_range]

end Sys2Proof.Machine
end

section
/-! The obligations on TICK and the waveform of 42_waveform.md. -/

namespace Sys2Proof.Machine

/-- Settles O23: the state after a TICK, element by element. -/
theorem tickResultAndFrame : Obligations.TickResultAndFrame := by
  intro s hwf
  have hcnt : s.ticked.cnt.toNat = s.nextCount := State.ticked_cnt_toNat hwf
  refine ⟨s.ticked, exec_tick s, hcnt, fun i hi => ?_, fun c hc => ?_, rfl, ⟨rfl, rfl⟩, rfl, ⟨rfl, rfl, rfl⟩,
    fun c => ⟨s.ticked_duty c, s.ticked_level c, fun hc => ?_⟩,
    fun i => ⟨s.ticked_pend i, s.ticked_pinl i, s.ticked_esel i, s.ticked_ie i, fun hi => ?_⟩⟩
  · rw [s.ticked_dbc, State.dbcAfterTick_toNat hi]
  · have hzero : s.ticked.cnt = 0 ↔ s.nextCount = 0 := by rw [← hcnt]; exact BitVec.toNat_inj.symm
    have heq : s.ticked.cnt = s.duty c ↔ s.nextCount = (s.duty c).toNat := by rw [← hcnt, BitVec.toNat_inj]
    have hle : s.duty c ≤ s.ticked.cnt ↔ (s.duty c).toNat ≤ s.nextCount := by rw [← hcnt]; exact BitVec.le_def
    simp only [hzero, heq, hle]
    split_ifs with hn hm
    · exact State.ticked_out_of_overflow hc hn
    · refine State.ticked_out_of_match hc hn ?_
      obtain ⟨hmode, hcmp⟩ | ⟨hmode, hcmp⟩ := hm <;> simpa [cmpMatch, hmode] using hcmp
    · refine State.ticked_out_of_no_match hc hn ?_
      cases hmode : s.cfg.cmpMode <;> simpa [cmpMatch, hmode] using hm
  · rw [s.ticked_out, s.outAfterTick_absent _ hc]
  · rw [s.ticked_dbc, s.dbcAfterTick_absent hi]

/-- Settles O27: at an overflow OUT is HIGH exactly when the count 0 is below D. -/
theorem steadyWaveform : Obligations.SteadyWaveform := by
  intro s c ops n h hc hzero hout hheld hn
  have hcnt : s.cnt.toNat = 0 := by rw [hzero]; rfl
  have hsteady := State.trace_out_steady (ops := ops) (n := n) h hc (by rw [hout, decide_ne_zero_eq, hcnt]) hheld
    (by omega)
  simpa [hcnt] using hsteady

/-- Settles O28: by the steady waveform OUT is HIGH at exactly the counts below D. -/
theorem highTimeIsExactlyDuty : Obligations.HighTimeIsExactlyDuty := by
  intro s c h hc hzero hout
  have hhigh : ∀ k ∈ List.range s.cfg.period, (s.afterTicks k).out c = decide (k < (s.duty c).toNat) := by
    intro k hk
    have hwave := steadyWaveform s c (fun _ => encode .tick) k h hc hzero hout
      (fun m _ => s.trace_tick_duty c m) (by rw [ticksAmong_tick]; exact List.mem_range.mp hk)
    rw [s.afterTicks_eq_trace, hwave.2, ticksAmong_tick]
  obtain ⟨cc, hcc⟩ := Config.chan?_of_hasChan hc
  rw [List.filter_congr hhigh, length_filter_range_lt (h.chan c cc hcc).duty_le_period]

/-- Settles O29: under EQ the counts to come are above D, so none matches; under GE the next one does. -/
theorem missedThreshold : Obligations.MissedThreshold := by
  refine ⟨fun s c ops n h hc hmode hout hle hheld hn => ?_, fun s c h hc hmode hle hlt => ?_⟩
  · have hrest := State.trace_out_induction (fun k o => (s.duty c).toNat ≤ k ∧ o = true) h hn ⟨hle, hout⟩
      fun m hm hnext ⟨hk, ho⟩ => ⟨by omega, ?_⟩
    · exact hrest.2.2
    · have hd : (s.trace ops m).duty c = s.duty c := hheld m (by omega)
      rw [State.ticked_out_of_no_match (by rwa [State.trace_cfg]) (by omega) ?_, ho]
      rw [State.trace_cfg, hmode, hd, hnext]
      exact decide_eq_false (by omega)
  · have hnext : s.nextCount = s.cnt.toNat + 1 := State.nextCount_of_lt hlt
    refine ⟨s.ticked, exec_tick s, State.ticked_out_of_match hc (by omega) ?_⟩
    rw [hmode, hnext]
    exact decide_eq_true (by omega)

/-- Settles O30: before the match OUT is HIGH exactly below the new D; after it only the overflow sets OUT. -/
theorem raceProperty : Obligations.RaceProperty := by
  refine ⟨fun s c ops n h hc hout hlt hheld hn => ?_, fun s c ops n h hout hn => ?_⟩
  · exact (State.trace_out_steady h hc (hout.trans (decide_eq_true hlt).symm) hheld hn).2
  · exact (State.trace_out_induction (fun _ o => o = false) h hn hout
      fun m _ hnext ho => State.ticked_out_low (by omega) ho).2

/-- Settles O31: with PERIOD = 1 every TICK is an overflow. -/
theorem periodOne : Obligations.PeriodOne := by
  intro s h hperiod
  have hlt := h.cnt_lt_period
  have hnext : s.nextCount = 0 := by rw [State.nextCount, hperiod, Nat.mod_one]
  refine ⟨BitVec.eq_of_toNat_eq (by simp; omega), s.ticked, exec_tick s, by rw [s.ticked_cnt, hnext]; rfl,
    fun c hc => ⟨?_, State.ticked_out_of_overflow hc hnext⟩⟩
  obtain ⟨cc, hcc⟩ := Config.chan?_of_hasChan hc
  have hduty := (h.chan c cc hcc).duty_le_period
  have hcases : (s.duty c).toNat = 0 ∨ (s.duty c).toNat = 1 := by omega
  exact hcases.imp (fun h0 => BitVec.eq_of_toNat_eq h0) fun h1 => BitVec.eq_of_toNat_eq h1

end Sys2Proof.Machine
end

section
/-! SUPPORT. Two runs that differ in the output levels alone (00_scope.md R3): the other state is the first with other
channel records that hold the same duty registers and level indices. -/

namespace Sys2Proof.Machine

/-- `s` with other channel records and another response. -/
def State.withChans (s : State) (chans : PerChan ChanState) (resp : Option Response) : State :=
  { s with chans := chans, resp := resp }

/-- The channel records hold the duty registers and level indices of `s`. -/
def State.SameRegs (s : State) (chans : PerChan ChanState) : Prop :=
  ∀ c, (chans.get c).duty = s.duty c ∧ (chans.get c).level = s.level c

theorem State.EqButOut.eq_withChans {s t : State} (h : s.EqButOut t) :
    t = s.withChans t.chans t.resp ∧ s.SameRegs t.chans := by
  obtain ⟨⟨hcfg, hstream⟩, hcnt, herr, hchan, hsite, hfade⟩ := h
  exact ⟨State.ext_elements hcfg hcnt herr (fun c => ⟨rfl, rfl, rfl⟩) hsite hfade hstream rfl, hchan⟩

section
variable {s : State} {chans : PerChan ChanState} {resp : Option Response}

/-- An operation that writes no duty register and no level index, whatever it answers. -/
theorem State.eqButOut_of_regs {s' t' : State} (env : s'.SameEnv t') (cnt : t'.cnt = s'.cnt) (err : t'.err = s'.err)
    (sites : t'.sites = s'.sites) (fade : t'.fade = s'.fade)
    (regs : ∀ c, t'.duty c = s'.duty c ∧ t'.level c = s'.level c) : s'.EqButOut t' :=
  ⟨env, cnt, err, regs, State.sameSite_of_sites_eq sites,
    ⟨congrArg FadeState.fcnt fade, congrArg FadeState.phase fade, congrArg FadeState.fivl fade⟩⟩

theorem State.SameRegs.duty (h : s.SameRegs chans) (c : Chan) : (s.withChans chans resp).duty c = s.duty c := (h c).1

theorem State.SameRegs.level (h : s.SameRegs chans) (c : Chan) : (s.withChans chans resp).level c = s.level c := (h c).2

/-- The fade tick reads no output. -/
theorem State.fadeTick_withChans (h : s.SameRegs chans) (p : FadeCfg) :
    (s.fadeTick p).EqButOut ((s.withChans chans resp).fadeTick p) := by
  have hduty : ∀ c, ((s.withChans chans resp).fadeTick p).duty c = (s.fadeTick p).duty c := fun c => by
    rw [State.fadeTick_duty, State.fadeTick_duty, h.duty]; rfl
  refine ⟨by simp [State.SameEnv, State.withChans], by simp [State.withChans], by simp [State.withChans],
    fun c => ⟨hduty c, ?_⟩, State.sameSite_of_sites_eq (by simp [State.withChans]), by simp, ?_, by
      rw [State.fadeTick_fivl, State.fadeTick_fivl]; rfl⟩
  · rw [State.fadeTick_level, State.fadeTick_level, h.level]
  · rw [State.fadeTick_phase, State.fadeTick_phase]
    exact if_congr (by rw [← hduty]; rfl) rfl rfl

/-- A site without a DUTY or LEVEL target updates nothing. -/
theorem State.applyUpdate_of_no_target {sc : SiteCfg}
    (h : ∀ c, sc.target = some c → s.cfg.isDutyChan c = false ∧ s.cfg.isLevelChan c = false) :
    s.applyUpdate sc = s := by
  obtain ⟨c, ht, hc, -⟩ | ⟨c, ht, hc, -⟩ | ⟨-, heq⟩ := s.applyUpdate_cases sc
  · simp [h c ht] at hc
  · simp [h c ht] at hc
  · exact heq

/-- The update of a serviced site reads no output. -/
theorem State.applyUpdate_withChans (h : s.SameRegs chans) (sc : SiteCfg) (c : Chan) :
    ((s.withChans chans resp).applyUpdate sc).duty c = (s.applyUpdate sc).duty c ∧
      ((s.withChans chans resp).applyUpdate sc).level c = (s.applyUpdate sc).level c := by
  have hcfg : (s.withChans chans resp).cfg = s.cfg := rfl
  obtain ⟨d, ht, hd, heq⟩ | ⟨d, ht, hd, heq⟩ | ⟨hno, heq⟩ := s.applyUpdate_cases sc
  · rw [heq, State.applyUpdate_duty (s := s.withChans chans resp) ht hd]
    simp [h.duty, h.level]
  · rw [heq, State.applyUpdate_level (s := s.withChans chans resp) ht hd]
    simp [h.duty, h.level, hcfg]
  · rw [heq, State.applyUpdate_of_no_target (s := s.withChans chans resp) hno]
    exact h c

/-- An operation on the other state is the operation on the first, but for OUT and the response. -/
theorem exec_withChans {s' : State} {i : Instr} (h : s.SameRegs chans) (hexec : exec i s = .next s') :
    ∃ t', exec i (s.withChans chans resp) = .next t' ∧ s'.EqButOut t' := by
  cases i with
  | tick =>
    cases hexec
    refine ⟨_, rfl, State.eqButOut_of_regs ⟨rfl, rfl⟩ rfl rfl rfl rfl fun c => ?_⟩
    simp [h.duty, h.level]
  | ftick =>
    obtain ⟨hf, rfl⟩ | ⟨p, hp, hcount, rfl⟩ | ⟨p, hp, hcount, rfl⟩ := execFtick_cases hexec
    · exact ⟨_, exec_ftick_absent hf, State.eqButOut_of_regs ⟨rfl, rfl⟩ rfl rfl rfl rfl h⟩
    · exact ⟨_, exec_ftick_fadeTick hp hcount, State.fadeTick_withChans h p⟩
    · exact ⟨_, exec_ftick_between hp hcount, State.eqButOut_of_regs ⟨rfl, rfl⟩ rfl rfl rfl rfl h⟩
  | pin n v =>
    obtain ⟨hn, rfl⟩ | ⟨i, sc, rfl, hi, ha, rfl⟩ | ⟨i, sc, rfl, hi, ha, rfl⟩ := execPin_cases hexec
    · exact ⟨_, exec_pin_badIndex v hn, State.eqButOut_of_regs ⟨rfl, rfl⟩ rfl rfl rfl rfl h⟩
    · exact ⟨_, exec_pin_accepted (Config.hasSite_of_site? hi) ha,
        State.eqButOut_of_regs ⟨rfl, rfl⟩ rfl rfl rfl rfl h⟩
    · exact ⟨_, exec_pin_not_accepted (Config.hasSite_of_site? hi) ha,
        State.eqButOut_of_regs ⟨rfl, rfl⟩ rfl rfl rfl rfl h⟩
  | svc n =>
    obtain ⟨hn, rfl⟩ | ⟨i, sc, rfl, hi, he, rfl⟩ | ⟨i, sc, rfl, hi, he, rfl⟩ := execSvc_cases hexec
    · exact ⟨_, exec_svc_badIndex hn, State.eqButOut_of_regs ⟨rfl, rfl⟩ rfl rfl rfl rfl h⟩
    · refine ⟨_, exec_svc_enabled (s := s.withChans chans resp) hi he, State.eqButOut_of_regs ?_ ?_ ?_ ?_ ?_
        (State.applyUpdate_withChans h sc)⟩
      · simp [State.SameEnv, State.withChans]
      · simp [State.withChans]
      · simp [State.withChans]
      · simp [State.setPend, State.withChans]
      · simp [State.withChans]
    · exact ⟨_, exec_svc_not_enabled (Config.hasSite_of_site? hi) he,
        State.eqButOut_of_regs ⟨rfl, rfl⟩ rfl rfl rfl rfl h⟩
  | rd n =>
    obtain ⟨hn, rfl⟩ | ⟨r, rfl, hr, rfl⟩ := execRd_cases hexec
    · exact ⟨_, execRd_unmapped hn, State.eqButOut_of_regs ⟨rfl, rfl⟩ rfl rfl rfl rfl h⟩
    · exact ⟨_, execRd_present hr, State.eqButOut_of_regs ⟨rfl, rfl⟩ rfl rfl rfl rfl h⟩
  | wr n x =>
    obtain ⟨hn, rfl⟩ | ⟨r, c, rfl, hr, hf, rfl⟩ | ⟨r, rfl, hr, hf, rfl⟩ := execWr_cases hexec
    · exact ⟨_, execWr_unmapped x hn, State.eqButOut_of_regs ⟨rfl, rfl⟩ rfl rfl rfl rfl h⟩
    · exact ⟨_, execWr_refused hr hf, State.eqButOut_of_regs ⟨rfl, rfl⟩ rfl rfl rfl rfl h⟩
    · refine ⟨_, execWr_accepted hr hf, ?_⟩
      obtain ⟨i, rfl, -⟩ | ⟨c, rfl, -⟩ | ⟨c, rfl, -⟩ := writeFault_eq_none hf
      · exact State.eqButOut_of_regs ⟨rfl, rfl⟩ rfl rfl rfl rfl h
      · refine State.eqButOut_of_regs ⟨rfl, rfl⟩ rfl rfl rfl rfl fun d => ?_
        simp [State.writeReg, h.duty, h.level]
      · refine State.eqButOut_of_regs ⟨rfl, rfl⟩ rfl rfl rfl rfl fun d => ?_
        have hcfg : (s.withChans chans resp).cfg = s.cfg := rfl
        simp [State.writeReg, h.duty, h.level, hcfg]

end

theorem runWord_withChans {s s' : State} {chans : PerChan ChanState} {resp : Option Response} {w : OpWord}
    (h : s.SameRegs chans) (hrun : runWord w s = .next s') :
    ∃ t', runWord w (s.withChans chans resp) = .next t' ∧ s'.EqButOut t' := by
  obtain ⟨e, he, rfl⟩ | ⟨i, hi, hexec⟩ := runWord_cases hrun
  · exact ⟨_, runWord_of_error he _, State.eqButOut_of_regs ⟨rfl, rfl⟩ rfl rfl rfl rfl h⟩
  · obtain ⟨t', ht', heq⟩ := exec_withChans (resp := resp) h hexec
    exact ⟨t', (runWord_of_ok hi _).trans ht', heq⟩

end Sys2Proof.Machine
end

section
/-! SUPPORT. The same machine with every channel SW (42_waveform.md R127): no rule reads CH_MODE. -/

namespace Sys2Proof

/-- The configuration with every channel's realisation SW. -/
def Config.allSoftware (cfg : Config) : Config :=
  { cfg with channels := cfg.channels.map fun c => { c with mode := .sw } }

section
variable (cfg : Config)

theorem Config.allSoftware_chan? (c : Chan) :
    cfg.allSoftware.chan? c = (cfg.chan? c).map fun cc => { cc with mode := .sw } := by
  simp [Config.chan?, Config.allSoftware]

@[simp] theorem Config.allSoftware_nch : cfg.allSoftware.nch = cfg.nch := by
  simp [Config.nch, Config.allSoftware]

@[simp] theorem Config.allSoftware_hasChan (c : Chan) : cfg.allSoftware.hasChan c = cfg.hasChan c := by
  simp [Config.hasChan, cfg.allSoftware_chan?]

@[simp] theorem Config.allSoftware_isDutyChan (c : Chan) : cfg.allSoftware.isDutyChan c = cfg.isDutyChan c := by
  cases h : cfg.chan? c <;> simp [Config.isDutyChan, cfg.allSoftware_chan?, h]

@[simp] theorem Config.allSoftware_isLevelChan (c : Chan) : cfg.allSoftware.isLevelChan c = cfg.isLevelChan c := by
  cases h : cfg.chan? c <;> simp [Config.isLevelChan, cfg.allSoftware_chan?, h]

theorem Config.allSoftware_siteOk (sc : SiteCfg) : cfg.allSoftware.siteOk sc = cfg.siteOk sc := by
  cases ht : sc.target with
  | none => simp [Config.siteOk, ht]
  | some c =>
    cases hc : cfg.chan? c with
    | none => simp [Config.siteOk, ht, cfg.allSoftware_chan?, hc]
    | some cc =>
      simp only [Config.siteOk, ht, cfg.allSoftware_chan?, hc, Option.map_some]
      rfl

@[simp] theorem Config.allSoftware_wellFormed : cfg.allSoftware.wellFormed = cfg.wellFormed := by
  have hsizes : cfg.allSoftware.sizesOk = cfg.sizesOk := by
    rw [Config.sizesOk, cfg.allSoftware_nch]; rfl
  have hfade : cfg.allSoftware.fadeChannelsOk = cfg.fadeChannelsOk := by
    rw [Config.fadeChannelsOk, cfg.allSoftware_nch, Config.fadeChannelsOk]
    simp only [Config.allSoftware, List.all_map, Function.comp_def]
  have hstart : cfg.allSoftware.startValuesOk = cfg.startValuesOk := by
    rw [Bool.eq_iff_iff, Config.startValuesOk_iff, Config.startValuesOk_iff]
    simp [Config.allSoftware]
  have hsites : cfg.allSoftware.sites.all cfg.allSoftware.siteOk = cfg.sites.all cfg.siteOk := by
    rw [funext cfg.allSoftware_siteOk]; rfl
  rw [Config.wellFormed, hsizes, hfade, hstart, hsites]
  rfl

@[simp] theorem Config.allSoftware_resetDuty (c : Chan) : cfg.allSoftware.resetDuty c = cfg.resetDuty c := by
  cases hc : cfg.chan? c with
  | none => simp [Config.resetDuty, cfg.allSoftware_chan?, hc]
  | some cc => cases hk : cc.kind <;> simp [Config.resetDuty, cfg.allSoftware_chan?, hc, hk] <;> rfl

@[simp] theorem Config.allSoftware_resetLevel (c : Chan) : cfg.allSoftware.resetLevel c = cfg.resetLevel c := by
  cases hc : cfg.chan? c with
  | none => simp [Config.resetLevel, cfg.allSoftware_chan?, hc]
  | some cc => cases hk : cc.kind <;> simp [Config.resetLevel, cfg.allSoftware_chan?, hc, hk]

end

end Sys2Proof

namespace Sys2Proof.Machine

section
variable (s : State)

theorem Reg.present_allSoftware (cfg : Config) (r : Reg) : r.present cfg.allSoftware = r.present cfg := by
  cases r with
  | duty c | level c => exact cfg.allSoftware_hasChan c
  | _ => rfl

theorem regAt_allSoftware (cfg : Config) (n : Nat) : regAt cfg.allSoftware n = regAt cfg n := by
  simp only [regAt, Reg.present_allSoftware]

theorem writeFault_allSoftware (cfg : Config) (r : Reg) (x : Nat) :
    writeFault cfg.allSoftware r x = writeFault cfg r x := by
  cases r with
  | duty c => simp only [writeFault, cfg.allSoftware_isDutyChan]; rfl
  | level c => simp only [writeFault, cfg.allSoftware_isLevelChan]
  | _ => rfl

theorem State.regValue_allSoftware (r : Reg) : s.allSoftware.regValue r = s.regValue r := by
  cases r with
  | out =>
    have hhas : ∀ c, s.allSoftware.cfg.hasChan c = s.cfg.hasChan c := s.cfg.allSoftware_hasChan
    simp only [State.regValue, State.outBits, hhas]
    rfl
  | _ => rfl

theorem State.ticked_allSoftware : s.allSoftware.ticked = s.ticked.allSoftware := by
  have houts : ∀ n, s.allSoftware.outAfterTick n = s.outAfterTick n := by
    intro n
    funext c
    have hhas : s.allSoftware.cfg.hasChan c = s.cfg.hasChan c := s.cfg.allSoftware_hasChan c
    simp only [State.outAfterTick, hhas]
    rfl
  have hticked : s.allSoftware.ticked = (((s.allSoftware.setCnt (BitVec.ofNat 16 s.nextCount)).setDbcs
      s.dbcAfterTick).setOuts (s.allSoftware.outAfterTick s.nextCount)).complete 0 := rfl
  rw [hticked, houts]
  rfl

theorem State.fadeTick_allSoftware (p : FadeCfg) : s.allSoftware.fadeTick p = (s.fadeTick p).allSoftware := by
  have hadvance : ∀ (u : State) (f : Chan), u.allSoftware.advancePhase f = (u.advancePhase f).allSoftware := by
    intro u f
    unfold State.advancePhase
    by_cases hf : u.duty f = 0
    · rw [if_pos (show u.allSoftware.duty f = 0 from hf), if_pos hf]
      rfl
    · rw [if_neg (show ¬u.allSoftware.duty f = 0 from hf), if_neg hf]
  rw [State.fadeTick, State.fadeTick]
  exact congrArg (State.lengthenInterval p) (hadvance ((s.setFcnt 0).fadeStep p) s.phase.falling)

theorem State.applyUpdate_allSoftware (sc : SiteCfg) :
    s.allSoftware.applyUpdate sc = (s.applyUpdate sc).allSoftware := by
  obtain ⟨c, ht, hc, heq⟩ | ⟨c, ht, hc, heq⟩ | ⟨hno, heq⟩ := s.applyUpdate_cases sc
  · rw [heq, State.applyUpdate_duty (s := s.allSoftware) ht ((s.cfg.allSoftware_isDutyChan c).trans hc)]
    rfl
  · rw [heq, State.applyUpdate_level (s := s.allSoftware) ht ((s.cfg.allSoftware_isLevelChan c).trans hc)]
    rfl
  · rw [heq, State.applyUpdate_of_no_target (s := s.allSoftware) fun c ht =>
      ⟨(s.cfg.allSoftware_isDutyChan c).trans (hno c ht).1, (s.cfg.allSoftware_isLevelChan c).trans (hno c ht).2⟩]

/-- An operation takes the machine with every channel SW to the same next state with every channel SW. -/
theorem exec_allSoftware {s t : State} {i : Instr} (h : exec i s = .next t) :
    exec i s.allSoftware = .next t.allSoftware := by
  cases i with
  | tick =>
    cases h
    exact congrArg Host.Outcome.next s.ticked_allSoftware
  | ftick =>
    obtain ⟨hf, rfl⟩ | ⟨p, hp, hcount, rfl⟩ | ⟨p, hp, hcount, rfl⟩ := execFtick_cases h
    · exact exec_ftick_absent (s := s.allSoftware) hf
    · rw [exec_ftick_fadeTick (s := s.allSoftware) hp hcount, s.fadeTick_allSoftware]
      rfl
    · exact exec_ftick_between (s := s.allSoftware) hp hcount
  | pin n v =>
    obtain ⟨hn, rfl⟩ | ⟨i, sc, rfl, hi, ha, rfl⟩ | ⟨i, sc, rfl, hi, ha, rfl⟩ := execPin_cases h
    · exact exec_pin_badIndex (s := s.allSoftware) v hn
    · exact exec_pin_accepted (s := s.allSoftware) (Config.hasSite_of_site? hi) ha
    · exact exec_pin_not_accepted (s := s.allSoftware) (Config.hasSite_of_site? hi) ha
  | svc n =>
    obtain ⟨hn, rfl⟩ | ⟨i, sc, rfl, hi, he, rfl⟩ | ⟨i, sc, rfl, hi, he, rfl⟩ := execSvc_cases h
    · exact exec_svc_badIndex (s := s.allSoftware) hn
    · rw [exec_svc_enabled (s := s.allSoftware) hi he, s.applyUpdate_allSoftware]
      rfl
    · exact exec_svc_not_enabled (s := s.allSoftware) (Config.hasSite_of_site? hi) he
  | rd n =>
    obtain ⟨hn, rfl⟩ | ⟨r, rfl, hr, rfl⟩ := execRd_cases h
    · exact execRd_unmapped (s := s.allSoftware) ((regAt_allSoftware s.cfg n).trans hn)
    · have hrun : exec (.rd r.num) s.allSoftware = _ :=
        execRd_present (s := s.allSoftware) ((r.present_allSoftware s.cfg).trans hr)
      rw [hrun, s.regValue_allSoftware]
      rfl
  | wr n x =>
    obtain ⟨hn, rfl⟩ | ⟨r, c, rfl, hr, hf, rfl⟩ | ⟨r, rfl, hr, hf, rfl⟩ := execWr_cases h
    · exact execWr_unmapped (s := s.allSoftware) x ((regAt_allSoftware s.cfg n).trans hn)
    · exact execWr_refused (s := s.allSoftware) ((r.present_allSoftware s.cfg).trans hr)
        ((writeFault_allSoftware s.cfg r x).trans hf)
    · have hrun : exec (.wr r.num x) s.allSoftware = _ := execWr_accepted (s := s.allSoftware)
        ((r.present_allSoftware s.cfg).trans hr) ((writeFault_allSoftware s.cfg r x).trans hf)
      rw [hrun]
      cases r <;> rfl

theorem runWord_allSoftware {s t : State} {w : OpWord} (h : runWord w s = .next t) :
    runWord w s.allSoftware = .next t.allSoftware := by
  obtain ⟨e, he, rfl⟩ | ⟨i, hi, hexec⟩ := runWord_cases h
  · exact runWord_of_error he _
  · exact (runWord_of_ok hi _).trans (exec_allSoftware hexec)

end

end Sys2Proof.Machine
end

section
/-! The obligations on what the outputs and CH_MODE leave (00_scope.md R3, 42_waveform.md R127). -/

namespace Sys2Proof.Machine

/-- Settles O32: the step takes the same word, and no operation reads OUT for anything but OUT and the response. -/
theorem outputsNeverFeedBack : Obligations.OutputsNeverFeedBack := by
  intro s t s' heq hstep
  obtain ⟨ht, hregs⟩ := heq.eq_withChans
  rw [ht]
  obtain ⟨hwf, ⟨hs, rfl⟩ | ⟨w, rest, hs, hrun⟩⟩ := step_cases hstep
  · exact ⟨_, step_of_empty (s := s'.withChans t.chans t.resp) hwf hs, ht ▸ heq⟩
  · obtain ⟨t', ht', heq'⟩ := runWord_withChans (s := { s with stream := rest }) (resp := t.resp) hregs hrun
    exact ⟨t', (step_of_stream (s := s.withChans t.chans t.resp) hwf hs).trans ht', heq'⟩

/-- Settles O33: the step takes the same word, and neither an operation nor a reset value reads CH_MODE. -/
theorem channelModeChangesNothing : Obligations.ChannelModeChangesNothing := by
  refine ⟨fun s t hstep => ?_, fun cfg => ?_⟩
  · obtain ⟨hwf, ⟨hs, rfl⟩ | ⟨w, rest, hs, hrun⟩⟩ := step_cases hstep
    · exact step_of_empty (s := t.allSoftware) (t.cfg.allSoftware_wellFormed.trans hwf) hs
    · exact (step_of_stream (s := s.allSoftware) (s.cfg.allSoftware_wellFormed.trans hwf) hs).trans
        (runWord_allSoftware hrun)
  · refine State.ext_elements rfl rfl rfl (fun c => ?_) (fun i => ⟨rfl, rfl, rfl, rfl, rfl⟩) ⟨rfl, rfl, rfl⟩ rfl rfl
    change (State.resetOf cfg).out c = (State.resetOf cfg.allSoftware).out c ∧
      (State.resetOf cfg).duty c = (State.resetOf cfg.allSoftware).duty c ∧
      (State.resetOf cfg).level c = (State.resetOf cfg.allSoftware).level c
    simp [Config.resetOut]

end Sys2Proof.Machine
end

section
/-! SUPPORT. The values a RD returns, as numbers (44_host_access.md R151), and a WR done twice (20_memory.md R65). -/

namespace Sys2Proof.Machine

/-- A RD of a present register completes with its value, written out. -/
theorem exec_rd_value {s : State} {r : Reg} {x : Nat} (hr : r.present s.cfg = true)
    (hx : s.regValue r = BitVec.ofNat 16 x) :
    exec (.rd r.num) s = .next { s with resp := some (.ok (BitVec.ofNat 16 x)) } := by
  rw [← hx]
  exact execRd_present hr

theorem State.outBits_eq (s : State) : s.outBits = (if s.cfg.hasChan .ch0 && s.out .ch0 then 1 else 0) +
    2 * (if s.cfg.hasChan .ch1 && s.out .ch1 then 1 else 0) +
    4 * (if s.cfg.hasChan .ch2 && s.out .ch2 then 1 else 0) := by
  simp only [State.outBits, Chan.all, bitValue, Chan.num, List.map_cons, List.map_nil, List.sum_cons, List.sum_nil]
  split_ifs <;> rfl

theorem State.outBits_lt (s : State) : s.outBits < 65536 := by
  rw [s.outBits_eq]
  split_ifs <;> decide

theorem State.siteBits_eq (s : State) (b : Site → Bool) : s.siteBits b =
    (if s.cfg.hasSite .s0 && b .s0 then 1 else 0) + 2 * (if s.cfg.hasSite .s1 && b .s1 then 1 else 0) := by
  simp only [State.siteBits, Site.all, bitValue, Site.num, List.map_cons, List.map_nil, List.sum_cons, List.sum_nil]
  split_ifs <;> rfl

theorem State.siteBits_lt (s : State) (b : Site → Bool) : s.siteBits b < 65536 := by
  rw [s.siteBits_eq]
  split_ifs <;> decide

theorem State.siteCfg_value (s : State) (i : Site) : (s.ie i).toNat + 2 * (edgeBit (s.esel i)).toNat =
    (if s.ie i then 1 else 0) + 2 * (if s.esel i = .falling then 1 else 0) := by
  cases s.ie i <;> cases s.esel i <;> rfl

theorem State.siteCfg_lt (s : State) (i : Site) : (s.ie i).toNat + 2 * (edgeBit (s.esel i)).toNat < 65536 := by
  cases s.ie i <;> cases s.esel i <;> decide

/-! Writing the same value again changes nothing. -/

theorem State.writeReg_writeReg (s : State) (r : Reg) (x : Nat) :
    ((s.writeReg r x).complete 0).writeReg r x = (s.writeReg r x).complete 0 := by
  cases r with
  | siteCfg i =>
    refine State.ext_elements rfl rfl rfl (fun c => ⟨rfl, rfl, rfl⟩) (fun j => ?_) ⟨rfl, rfl, rfl⟩ rfl rfl
    by_cases hj : j = i <;> simp [State.writeReg, hj]
  | duty c =>
    refine State.ext_elements rfl rfl rfl (fun d => ?_) (fun j => ⟨rfl, rfl, rfl, rfl, rfl⟩) ⟨rfl, rfl, rfl⟩ rfl rfl
    by_cases hd : d = c <;> simp [State.writeReg, hd]
  | level c =>
    refine State.ext_elements rfl rfl rfl (fun d => ?_) (fun j => ⟨rfl, rfl, rfl, rfl, rfl⟩) ⟨rfl, rfl, rfl⟩ rfl rfl
    have hcfg : (s.setLevelAlias c x).cfg = s.cfg := rfl
    by_cases hd : d = c <;> simp [State.writeReg, hd, hcfg]
  | _ => rfl

end Sys2Proof.Machine
end

section
/-! The obligations on RD and WR of 44_host_access.md. -/

namespace Sys2Proof.Machine

/-- Settles O50: each register's value is the stated number, and the number fits a register. -/
theorem rdAnswersRegister : Obligations.RdAnswersRegister := by
  intro s hwf
  obtain ⟨-, hperiod, -⟩ := Config.wellFormed_sizes hwf
  have answers : ∀ (r : Reg) {y x : Nat}, r.present s.cfg = true → s.regValue r = BitVec.ofNat 16 y → y = x →
      y < 65536 → exec (.rd r.num) s = .next { s with resp := some (.ok (BitVec.ofNat 16 x)) } ∧ x < 65536 :=
    fun r y x hr hy hyx hlt => hyx ▸ ⟨exec_rd_value hr hy, hlt⟩
  have word : ∀ (r : Reg) (v : Word), r.present s.cfg = true → s.regValue r = v →
      exec (.rd r.num) s = .next { s with resp := some (.ok (BitVec.ofNat 16 v.toNat)) } ∧ v.toNat < 65536 :=
    fun r v hr hv => answers r hr (by rw [hv, BitVec.ofNat_toNat, BitVec.setWidth_eq]) rfl v.isLt
  have hphase : s.phase.num < 65536 := by cases s.phase <;> decide
  refine ⟨answers .period rfl rfl rfl (by omega), word .cnt _ rfl rfl, answers .out rfl rfl s.outBits_eq s.outBits_lt,
    word .err _ rfl rfl, answers .pend rfl rfl (s.siteBits_eq s.pend) (s.siteBits_lt s.pend),
    answers .pinl rfl rfl (s.siteBits_eq s.pinl) (s.siteBits_lt s.pinl),
    fun i hi => ⟨answers (.siteCfg i) hi rfl (s.siteCfg_value i) (s.siteCfg_lt i), word (.dbc i) _ hi rfl⟩,
    fun c hc => ⟨word (.duty c) _ hc rfl, word (.level c) _ hc rfl⟩,
    fun hf => ⟨answers .phase hf rfl rfl hphase, word .fcnt _ hf rfl, word .fivl _ hf rfl⟩⟩

/-- Settles O57: the second write finds the checks as they were and the value in place. -/
theorem acceptedWriteIsIdempotent : Obligations.AcceptedWriteIsIdempotent := by
  intro s t n x hexec hok
  obtain ⟨-, rfl⟩ | ⟨r, c, -, -, -, rfl⟩ | ⟨r, rfl, hr, hf, rfl⟩ := execWr_cases hexec
  · cases hok
  · cases hok
  · have hcfg : ((s.writeReg r x).complete 0).cfg = s.cfg := s.writeReg_cfg r x
    have hagain := execWr_accepted (s := (s.writeReg r x).complete 0) (by rwa [hcfg]) (by rwa [hcfg])
    rw [State.writeReg_writeReg] at hagain
    exact hagain

end Sys2Proof.Machine
end

section
/-! SUPPORT. Runs of FTICK: up to the next fade tick, and over fade ticks (43_fade.md R134 to R145). -/

namespace Sys2Proof.Machine

section
variable {s : State} {p : FadeCfg}

theorem decode_encode_ftick : decode (encode .ftick) = .ok .ftick := decode_encode rfl

theorem State.afterWord_ftick_fadeTick (hp : s.cfg.fade = some p) (hcount : s.fcnt.toNat + 1 = s.fivl.toNat) :
    s.afterWord (encode .ftick) = (s.fadeTick p).complete 0 := by
  rw [State.afterWord, runWord_of_ok decode_encode_ftick, exec_ftick_fadeTick hp hcount, State.after]

theorem State.afterWord_ftick_between (hp : s.cfg.fade = some p) (hcount : s.fcnt.toNat + 1 ≠ s.fivl.toNat) :
    s.afterWord (encode .ftick) = (s.setFcnt (BitVec.ofNat 16 (s.fcnt.toNat + 1))).complete 0 := by
  rw [State.afterWord, runWord_of_ok decode_encode_ftick, exec_ftick_between hp hcount, State.after]

/-- A fade tick reads neither FCNT nor the response. -/
theorem State.fadeTick_setFcnt_complete (s : State) (p : FadeCfg) (v x : Word) :
    (((s.setFcnt v).complete x).fadeTick p).complete 0 = (s.fadeTick p).complete 0 := by
  have hadvance : ∀ (u : State) (f : Chan),
      ((u.complete x).advancePhase f).complete 0 = (u.advancePhase f).complete 0 := by
    intro u f
    unfold State.advancePhase
    by_cases hf : u.duty f = 0
    · rw [if_pos (show (u.complete x).duty f = 0 from hf), if_pos hf]
      rfl
    · rw [if_neg (show ¬(u.complete x).duty f = 0 from hf), if_neg hf]
      rfl
  exact congrArg (State.lengthenInterval p) (hadvance ((s.setFcnt 0).fadeStep p) s.phase.falling)

theorem State.afterWords_append (s : State) (ws vs : List OpWord) :
    s.afterWords (ws ++ vs) = (s.afterWords ws).afterWords vs := by
  induction ws generalizing s with
  | nil => rfl
  | cons w ws ih => exact ih (s.afterWord w)

theorem State.afterFticks_add (s : State) (a b : Nat) : s.afterFticks (a + b) = (s.afterFticks a).afterFticks b := by
  rw [State.afterFticks, List.replicate_add, State.afterWords_append]
  rfl

/-- The FTICKs that bring FCNT to FIVL change only FCNT before the last of them, the fade tick. -/
theorem State.afterFticks_eq_fadeTick {d : Nat} (hp : s.cfg.fade = some p)
    (hd : s.fcnt.toNat + (d + 1) = s.fivl.toNat) :
    s.afterFticks (d + 1) = (s.fadeTick p).complete 0 := by
  induction d generalizing s with
  | zero => exact State.afterWord_ftick_fadeTick hp hd
  | succ d ih =>
    have hcount := State.fcnt_succ_toNat (s := s) (by omega)
    have hfirst := State.afterWord_ftick_between (s := s) hp (by omega)
    have hrest := ih (s := (s.setFcnt (BitVec.ofNat 16 (s.fcnt.toNat + 1))).complete 0) hp
      (by rw [State.complete_fcnt, State.setFcnt_fcnt, hcount, State.complete_fivl, State.setFcnt_fivl]; omega)
    calc s.afterFticks (d + 1 + 1) = (s.afterWord (encode .ftick)).afterFticks (d + 1) := rfl
      _ = (s.fadeTick p).complete 0 := by rw [hfirst, hrest, State.fadeTick_setFcnt_complete]

theorem State.nextFadeTick_eq (h : s.Inv) (hp : s.cfg.fade = some p) :
    s.nextFadeTick = (s.fadeTick p).complete 0 := by
  have hlt := (h.fade_seq p hp).fcnt_lt
  have hcount : s.fivl.toNat - s.fcnt.toNat = (s.fivl.toNat - s.fcnt.toNat - 1) + 1 := by omega
  rw [State.nextFadeTick, hcount]
  exact State.afterFticks_eq_fadeTick hp (by omega)

theorem State.Inv.fadeTick (h : s.Inv) (hp : s.cfg.fade = some p) : ((s.fadeTick p).complete 0).Inv := by
  refine State.Inv.complete ?_ 0
  exact h.of_fade hp (by simp) (by simp) (by simp) (by simp) (by simp) (.fadeTick h hp)

/-- Fade ticks keep the configuration and the invariants. -/
theorem State.afterFadeTicks_inv (h : s.Inv) (hp : s.cfg.fade = some p) (k : Nat) :
    (s.afterFadeTicks k).Inv ∧ (s.afterFadeTicks k).cfg = s.cfg := by
  induction k with
  | zero => exact ⟨h, rfl⟩
  | succ k ih =>
    obtain ⟨hinv, hcfg⟩ := ih
    have hp' : (s.afterFadeTicks k).cfg.fade = some p := by rw [hcfg, hp]
    rw [State.afterFadeTicks, State.nextFadeTick_eq hinv hp']
    exact ⟨hinv.fadeTick hp', by simpa using hcfg⟩

theorem State.afterFadeTicks_succ (h : s.Inv) (hp : s.cfg.fade = some p) (k : Nat) :
    s.afterFadeTicks (k + 1) = ((s.afterFadeTicks k).fadeTick p).complete 0 := by
  obtain ⟨hinv, hcfg⟩ := State.afterFadeTicks_inv h hp k
  rw [State.afterFadeTicks, State.nextFadeTick_eq hinv (by rw [hcfg, hp])]

theorem State.afterFadeTicks_add (s : State) (a b : Nat) :
    s.afterFadeTicks (a + b) = (s.afterFadeTicks a).afterFadeTicks b := by
  induction b with
  | zero => rfl
  | succ b ih => rw [← Nat.add_assoc, State.afterFadeTicks, ih, State.afterFadeTicks]

end

/-! The place in the cycle (R141, R142). -/

/-- `s` is `j` fade ticks into the phase `ph`: the rising channel has `j` steps, the falling one the rest of PERIOD. -/
structure State.AtStep (s : State) (p : FadeCfg) (ph : Phase) (j : Nat) : Prop where
  phase   : s.phase = ph
  falling : (s.duty ph.falling).toNat = s.cfg.period - j * p.step
  rising  : (s.duty ph.rising).toNat = j * p.step
  other   : s.duty ph.other = 0

section
variable {s : State} {p : FadeCfg} {ph : Phase} {n j : Nat}

/-- A fade tick of one phase, which has `n` of them. -/
theorem State.AtStep.fadeTick (h : s.Inv) (hp : s.cfg.fade = some p) (hn : s.cfg.period = n * p.step)
    (hat : s.AtStep p ph j) :
    (j + 1 < n → ((s.fadeTick p).complete 0).AtStep p ph (j + 1)) ∧
      (j + 1 = n → ((s.fadeTick p).complete 0).AtStep p ph.succ 0) := by
  obtain ⟨hstep, -⟩ := Config.wellFormed_fade h.config hp
  obtain ⟨rfl, hfalling, hrising, hother⟩ := hat
  have hfall := s.fadeTick_falling_toNat p
  have hrise := State.fadeTick_rising_toNat h hp
  have hrest := s.fadeTick_other p
  rw [hfalling, Nat.sub_sub, ← Nat.succ_mul] at hfall
  rw [hrising, ← Nat.succ_mul] at hrise
  refine ⟨fun hlt => ?_, fun hlast => ?_⟩
  · have hmul : (j + 1) * p.step < n * p.step := Nat.mul_lt_mul_of_pos_right hlt hstep
    have hne : (s.fadeTick p).duty s.phase.falling ≠ 0 := fun hz => by
      have : ((s.fadeTick p).duty s.phase.falling).toNat = 0 := by rw [hz]; rfl
      rw [Nat.succ_eq_add_one] at hfall
      omega
    have hphase : (s.fadeTick p).phase = s.phase := by rw [s.fadeTick_phase, if_neg hne]
    exact ⟨hphase, by simpa using hfall, hrise, hrest.trans hother⟩
  · subst hlast
    have hz : (s.fadeTick p).duty s.phase.falling = 0 := BitVec.eq_of_toNat_eq (by rw [hfall, hn]; simp)
    have hphase : (s.fadeTick p).phase = s.phase.succ := by rw [s.fadeTick_phase, if_pos hz]
    refine ⟨hphase, ?_, ?_, ?_⟩
    · rw [s.phase.succ_falling]
      simpa [hn] using hrise
    · rw [s.phase.succ_rising, State.complete_duty, hrest, hother]
      simp
    · rw [s.phase.succ_other]
      exact hz

/-- A phase from its start to the start of the next one (R141). -/
theorem State.AtStep.afterFadeTicks (h : s.Inv) (hp : s.cfg.fade = some p) (hn : s.cfg.period = n * p.step)
    (hpos : 0 < n) (hat : s.AtStep p ph 0) :
    (∀ j, j < n → (s.afterFadeTicks j).AtStep p ph j) ∧ (s.afterFadeTicks n).AtStep p ph.succ 0 := by
  have inside : ∀ j, j < n → (s.afterFadeTicks j).AtStep p ph j := by
    intro j
    induction j with
    | zero => exact fun _ => hat
    | succ j ih =>
      intro hj
      obtain ⟨hinv, hcfg⟩ := State.afterFadeTicks_inv h hp j
      rw [State.afterFadeTicks_succ h hp]
      exact ((ih (by omega)).fadeTick hinv (by rw [hcfg, hp]) (by rw [hcfg, hn])).1 hj
  refine ⟨inside, ?_⟩
  obtain ⟨m, rfl⟩ := Nat.exists_eq_add_of_lt hpos
  obtain ⟨hinv, hcfg⟩ := State.afterFadeTicks_inv h hp (0 + m)
  rw [State.afterFadeTicks_succ h hp]
  exact ((inside (0 + m) (by omega)).fadeTick hinv (by rw [hcfg, hp]) (by rw [hcfg, hn])).2 rfl

end

/-! The interval (R139, R143 to R145). -/

/-- The interval grows by FADE_ACCEL while the sum fits, and at the first that does not it rolls over. -/
theorem nextInterval_of_le {p : FadeCfg} {v : Nat} (h : v + p.accel ≤ p.ivlMax) : nextInterval p v = v + p.accel :=
  if_pos h

theorem nextInterval_of_gt {p : FadeCfg} {v : Nat} (h : p.ivlMax < v + p.accel) :
    (p.roll = .hold → nextInterval p v = p.ivlMax) ∧ (p.roll = .reset → nextInterval p v = p.ivlInit) := by
  have hnot : ¬v + p.accel ≤ p.ivlMax := by omega
  constructor <;> intro hroll <;> simp [nextInterval, hnot, hroll]

/-- Under HOLD the interval grows until it is FIVL_MAX (R145). -/
theorem nextInterval_hold_lt {p : FadeCfg} {v : Nat} (hroll : p.roll = .hold) (haccel : 1 ≤ p.accel)
    (hv : v < p.ivlMax) : v < nextInterval p v := by
  by_cases hfits : v + p.accel ≤ p.ivlMax
  · rw [nextInterval_of_le hfits]; omega
  · rw [(nextInterval_of_gt (by omega)).1 hroll]; exact hv

section
variable {s : State} {p : FadeCfg}

/-- FIVL after one fade tick of a run. -/
theorem State.afterFadeTicks_succ_fivl (h : s.Inv) (hp : s.cfg.fade = some p) (k : Nat) :
    (s.afterFadeTicks (k + 1)).fivl.toNat = nextInterval p (s.afterFadeTicks k).fivl.toNat := by
  obtain ⟨hinv, hcfg⟩ := State.afterFadeTicks_inv h hp k
  rw [State.afterFadeTicks_succ h hp]
  exact State.fadeTick_fivl_toNat hinv (by rw [hcfg, hp])

/-- The interval after `j` fade ticks while it has not rolled over (R143). -/
theorem State.afterFadeTicks_fivl (h : s.Inv) (hp : s.cfg.fade = some p) (hstart : s.fivl.toNat = p.ivlInit) {j : Nat}
    (hj : p.ivlInit + j * p.accel ≤ p.ivlMax) : (s.afterFadeTicks j).fivl.toNat = p.ivlInit + j * p.accel := by
  induction j with
  | zero => rw [Nat.zero_mul, Nat.add_zero]; exact hstart
  | succ j ih =>
    rw [Nat.succ_mul] at hj
    have hfivl := ih (by omega)
    rw [State.afterFadeTicks_succ_fivl h hp, hfivl, nextInterval_of_le (by omega), Nat.succ_mul, Nat.add_assoc]

/-- FCNT is 0 after every fade tick. -/
theorem State.afterFadeTicks_fcnt (h : s.Inv) (hp : s.cfg.fade = some p) (hstart : s.fcnt = 0) (k : Nat) :
    (s.afterFadeTicks k).fcnt = 0 := by
  cases k with
  | zero => exact hstart
  | succ k => rw [State.afterFadeTicks_succ h hp, State.complete_fcnt, State.fadeTick_fcnt]

/-- The FTICK that is the `k`-th fade tick (R143). -/
theorem State.afterFticks_eq_afterFadeTicks (h : s.Inv) (hp : s.cfg.fade = some p) (hfcnt : s.fcnt = 0)
    (hstart : s.fivl.toNat = p.ivlInit) {k : Nat} (hk : p.ivlInit + (k - 1) * p.accel ≤ p.ivlMax) :
    s.afterFticks (k * p.ivlInit + p.accel * (k * (k - 1) / 2)) = s.afterFadeTicks k := by
  induction k with
  | zero => simp [State.afterFticks, State.afterWords, State.afterFadeTicks]
  | succ k ih =>
    rw [Nat.add_sub_cancel] at hk
    have hprev : (k - 1) * p.accel ≤ k * p.accel := Nat.mul_le_mul_right _ (Nat.sub_le k 1)
    have hfivl := State.afterFadeTicks_fivl h hp hstart hk
    have hzero : (s.afterFadeTicks k).fcnt.toNat = 0 := by rw [State.afterFadeTicks_fcnt h hp hfcnt]; rfl
    have hsplit : (k + 1) * p.ivlInit + p.accel * ((k + 1) * (k + 1 - 1) / 2) =
        (k * p.ivlInit + p.accel * (k * (k - 1) / 2)) + (p.ivlInit + k * p.accel) := by
      rw [Nat.triangle_succ]
      ring
    rw [hsplit, State.afterFticks_add, ih (by omega), State.afterFadeTicks, State.nextFadeTick, hfivl, hzero,
      Nat.sub_zero]

/-- Taking a word from the stream keeps the invariants. -/
theorem State.Inv.taken (h : s.Inv) (rest : List OpWord) : State.Inv { s with stream := rest } :=
  h.of_eq rfl rfl rfl rfl rfl h.err_bits

/-- Under HOLD no operation shortens the interval (R145): only a fade tick writes it. -/
theorem exec_hold_fivl {t : State} {i : Instr} (h : s.Inv) (hp : s.cfg.fade = some p) (hroll : p.roll = .hold)
    (hexec : exec i s = .next t) : s.fivl.toNat ≤ t.fivl.toNat := by
  by_cases hi : i = .ftick
  · subst hi
    obtain ⟨-, rfl⟩ | ⟨q, hq, -, rfl⟩ | ⟨q, -, -, rfl⟩ := execFtick_cases hexec
    · exact Nat.le_refl _
    · obtain rfl : p = q := by simpa [hp] using hq
      exact (nextInterval_hold hroll (h.fade_seq p hp).fivl_le).trans_eq (State.fadeTick_fivl_toNat h hp).symm
    · exact Nat.le_refl _
  · have hsame : t.fivl = s.fivl := congrArg FadeState.fivl (exec_keeps_fade hexec hi)
    rw [hsame]

end

end Sys2Proof.Machine
end

section
/-! The obligations on FTICK and the fade of 43_fade.md. -/

namespace Sys2Proof.Machine

/-- Settles O34: without fade parameters the FTICK only completes. -/
theorem ftickWithoutSequencer : Obligations.FtickWithoutSequencer := by
  intro s hf
  exact exec_ftick_absent (by simpa [Config.fadeEn] using hf)

/-- Settles O35: the count is below the interval, so the FTICK only stores it, and it fits the register. -/
theorem ftickBetweenFadeTicks : Obligations.FtickBetweenFadeTicks := by
  intro s _ hf hlt
  obtain ⟨p, hp⟩ := Option.isSome_iff_exists.mp hf
  exact ⟨_, exec_ftick_between hp (by omega), State.fcnt_succ_toNat hlt, rfl, rfl, rfl, ⟨rfl, rfl⟩, rfl, rfl,
    fun c => ⟨rfl, rfl, rfl⟩, fun i => ⟨rfl, rfl, rfl, rfl, rfl⟩⟩

/-- Settles O36: the channel numbered PHASE is the falling one and the next number the rising one. -/
theorem fadeTickResultAndFrame : Obligations.FadeTickResultAndFrame := by
  intro s p f r h hp hcount hfnum hrnum
  obtain rfl : f = s.phase.falling := Chan.num_inj (hfnum.trans s.phase.falling_num.symm)
  obtain rfl : r = s.phase.rising := Chan.num_inj (hrnum.trans s.phase.rising_num.symm)
  have hge := (h.fade_seq p hp).falling_ge_step
  have hfall := s.fadeTick_falling_toNat p
  have hfivl := State.fadeTick_fivl_toNat h hp
  refine ⟨_, exec_ftick_fadeTick hp hcount, ?_, State.fadeTick_rising_toNat h hp, s.fadeTick_fcnt p, fun hz => ?_,
    fun hz => ?_, fun hle => ?_, fun hgt hroll => ?_, fun hgt hroll => ?_, rfl, ⟨s.fadeTick_cfg p, s.fadeTick_stream p⟩,
    s.fadeTick_cnt p, s.fadeTick_err p, fun c => ⟨s.fadeTick_out p c, s.fadeTick_level p c, fun hf hr => ?_⟩,
    State.sameSite_of_sites_eq (s.fadeTick_sites p)⟩
  · rw [State.complete_duty, hfall]; omega
  · rw [State.complete_duty] at hz
    rw [State.complete_phase, s.fadeTick_phase, if_pos hz, s.phase.succ_num]
  · rw [State.complete_duty] at hz
    rw [State.complete_phase, s.fadeTick_phase, if_neg hz]
  · exact hfivl.trans (nextInterval_of_le hle)
  · exact hfivl.trans ((nextInterval_of_gt hgt).1 hroll)
  · exact hfivl.trans ((nextInterval_of_gt hgt).2 hroll)
  · rw [State.complete_duty, s.fadeTick_duty, if_neg hf, if_neg hr]

/-- Settles O37: three phases in a row, each from its start to the start of the next. -/
theorem fadeCycleReturns : Obligations.FadeCycleReturns := by
  intro cfg p hwf hp s n
  obtain ⟨hstep, hle, hdvd, -⟩ := Config.wellFormed_fade hwf hp
  have hinv : s.Inv := State.resetOf_inv hwf
  have hn : cfg.period = n * p.step := (Nat.div_mul_cancel (Nat.dvd_of_mod_eq_zero hdvd)).symm
  have hpos : 0 < n := Nat.div_pos hle hstep
  have hduty := State.resetOf_fade_duty hwf hp
  have hat0 : s.AtStep p .redToGreen 0 :=
    ⟨rfl, (hduty .ch0).trans (by simp [s]), (hduty .ch1).trans (by simp), BitVec.eq_of_toNat_eq (hduty .ch2)⟩
  have twice : ∀ j, s.afterFadeTicks (2 * n + j) = (s.afterFadeTicks n).afterFadeTicks (n + j) := fun j => by
    rw [← State.afterFadeTicks_add, ← Nat.add_assoc, Nat.two_mul]
  obtain ⟨hred, hat1⟩ := hat0.afterFadeTicks hinv hp hn hpos
  obtain ⟨hinv1, hcfg1⟩ := State.afterFadeTicks_inv hinv hp n
  have hp1 : (s.afterFadeTicks n).cfg.fade = some p := by rw [hcfg1]; exact hp
  have hn1 : (s.afterFadeTicks n).cfg.period = n * p.step := by rw [hcfg1]; exact hn
  obtain ⟨hgreen, hat2⟩ := hat1.afterFadeTicks hinv1 hp1 hn1 hpos
  obtain ⟨hinv2, hcfg2⟩ := State.afterFadeTicks_inv hinv1 hp1 n
  obtain ⟨hblue, hat3⟩ := hat2.afterFadeTicks hinv2 (by rw [hcfg2, hp1]) (by rw [hcfg2, hn1]) hpos
  have hcfg : ∀ k, (s.afterFadeTicks k).cfg = cfg := fun k => (State.afterFadeTicks_inv hinv hp k).2
  refine ⟨fun j hj => ?_, fun j hj => ?_, fun j hj => ?_, ?_⟩
  · obtain ⟨hphase, hfalling, hrising, hother⟩ := hred j hj
    rw [hcfg] at hfalling
    exact ⟨congrArg Phase.num hphase, hfalling, hrising, hother⟩
  · have hat := hgreen j hj
    rw [← State.afterFadeTicks_add] at hat
    obtain ⟨hphase, hfalling, hrising, hother⟩ := hat
    rw [hcfg] at hfalling
    exact ⟨congrArg Phase.num hphase, hother, hfalling, hrising⟩
  · have hat := hblue j hj
    rw [← State.afterFadeTicks_add, ← twice] at hat
    obtain ⟨hphase, hfalling, hrising, hother⟩ := hat
    rw [hcfg] at hfalling
    exact ⟨congrArg Phase.num hphase, hrising, hother, hfalling⟩
  · rw [← State.afterFadeTicks_add, ← twice, show 2 * n + n = 3 * n by omega] at hat3
    obtain ⟨hphase, hfalling, hrising, hother⟩ := hat3
    rw [hcfg, Nat.zero_mul, Nat.sub_zero] at hfalling
    rw [Nat.zero_mul] at hrising
    refine ⟨hphase, fun c => BitVec.eq_of_toNat_eq ?_⟩
    cases c with
    | ch0 => exact hfalling.trans (hduty .ch0).symm
    | ch1 => exact hrising.trans (hduty .ch1).symm
    | ch2 => exact (congrArg BitVec.toNat hother).trans (hduty .ch2).symm

/-- Settles O38: the intervals in closed form, and one more fade tick after the last that fits. -/
theorem fadeSchedule : Obligations.FadeSchedule := by
  intro cfg p hwf hp s
  obtain ⟨-, -, -, -, hinit, -, haccel, -⟩ := Config.wellFormed_fade hwf hp
  have hinv : s.Inv := State.resetOf_inv hwf
  have hstart : s.fivl.toNat = p.ivlInit := State.resetOf_fivl_toNat hwf hp
  refine ⟨fun j hj => State.afterFadeTicks_fivl hinv hp hstart hj,
    fun k hk => State.afterFticks_eq_afterFadeTicks hinv hp rfl hstart hk, ?_⟩
  intro jmax
  have hle : jmax * p.accel ≤ p.ivlMax - p.ivlInit := Nat.div_mul_le_self _ _
  have hgt : p.ivlMax - p.ivlInit < p.accel * jmax + p.accel := Nat.lt_mul_div_succ _ haccel
  have hfivl := State.afterFadeTicks_fivl hinv hp hstart (j := jmax) (by omega)
  have hpast : p.ivlMax < (s.afterFadeTicks jmax).fivl.toNat + p.accel := by
    rw [hfivl, Nat.mul_comm jmax]; omega
  rw [State.afterFadeTicks_succ_fivl hinv hp]
  exact nextInterval_of_gt hpast

/-- Settles O39: only a fade tick changes FIVL, and under HOLD it lengthens the interval up to FIVL_MAX. -/
theorem holdNeverSpeedsUp : Obligations.HoldNeverSpeedsUp := by
  intro s t p h hp hroll hstep
  refine ⟨?_, fun rest hs hcount hlt => ?_⟩
  · obtain ⟨-, ⟨-, rfl⟩ | ⟨w, rest, -, hrun⟩⟩ := step_cases hstep
    · exact Nat.le_refl _
    · obtain ⟨e, -, rfl⟩ | ⟨i, -, hexec⟩ := runWord_cases hrun
      · exact Nat.le_refl _
      · exact exec_hold_fivl (s := { s with stream := rest }) (h.taken rest) hp hroll hexec
  · rw [step_of_stream h.config hs, runWord_of_ok decode_encode_ftick,
      exec_ftick_fadeTick (s := { s with stream := rest }) hp hcount] at hstep
    cases hstep
    obtain ⟨-, -, -, -, -, -, haccel, -⟩ := Config.wellFormed_fade h.config hp
    exact (nextInterval_hold_lt hroll haccel hlt).trans_eq (State.fadeTick_fivl_toNat (h.taken rest) hp).symm

end Sys2Proof.Machine
end
